-- ==== Sys2Proof/Word.lean ====
section
/-! DEFINITION. The word types of 00_scope.md rules R8 and R10: every register and buffer word is 32 bits,
unsigned, bit 0 the least significant. -/

namespace Sys2Proof

/-- A 32-bit register, buffer or operand word (R8 `WORD`). -/
abbrev Word := BitVec 32

/-- One byte of the byte view of memory (R64). -/
abbrev Byte := BitVec 8

end Sys2Proof
end

