-- ==== Sys2Proof/Syntax.lean ====
section
/-! DEFINITION. The syntax of a command: the three command words of 30_encoding.md rule R90, and the inductive of
commands, one constructor per row of spec/opcode_table.json (rule R93). -/

namespace Sys2Proof

/-- A command as HOST supplies it: three 32-bit words (R21, R90). -/
structure Command where
  cmd : Word
  opa : Word
  opb : Word
  deriving DecidableEq, Repr

/-- The commands of R93, with the operands each one uses (R92). An operand word a command ignores is no field of it. -/
inductive Instr where
  /-- PACK pin, width, maxpin, base, value (R124). -/
  | pack (pin : BitVec 8) (w : BitVec 6) (maxp : BitVec 8) (base value : Word)
  /-- UNPACK pin, width, maxpin, base (R127). -/
  | unpack (pin : BitVec 8) (w : BitVec 6) (maxp : BitVec 8) (base : Word)
  /-- GPIO.SET pin (R141). -/
  | gpioSet (pin : BitVec 8)
  /-- GPIO.CLR pin (R142). -/
  | gpioClr (pin : BitVec 8)
  /-- GPIO.PULL pin, state (R143). -/
  | gpioPull (pin : BitVec 8) (state : Word)
  /-- GPIO.FSEL pin, function (R144). -/
  | gpioFsel (pin : BitVec 8) (function : Word)
  /-- GPIO.ALT3 pin (R146). -/
  | gpioAlt3 (pin : BitVec 8)
  /-- GPIO.ALT5 pin (R147). -/
  | gpioAlt5 (pin : BitVec 8)
  /-- BUF.WR index, value (R161). -/
  | bufWr (index value : Word)
  /-- BUF.RD index (R162). -/
  | bufRd (index : Word)
  /-- BUF.ADDR (R163). -/
  | bufAddr
  /-- MBOX.CALL 1, the Framebuffer row (R171). -/
  | mboxCallFb
  /-- MBOX.CALL 8, the Property row (R171). -/
  | mboxCallProp
  deriving DecidableEq, Repr

end Sys2Proof
end

