-- ==== Sys2Proof/WellFormed.lean ====
section
/-! DEFINITION. Which commands can be written at all: the width of PACK and UNPACK is 1 to 32 (30_encoding.md rules R93,
R95 (c) and R101). Every other operand fills its field or operand word, whatever its value. -/

namespace Sys2Proof

/-- R95 (c), 92_eei_decisions.md D7: a field width is 1 to 32. -/
def widthLegal (w : BitVec 6) : Bool := 1 ≤ w.toNat && w.toNat ≤ 32

/-- The one check on a command's operands. -/
def Instr.wellFormed : Instr → Bool
  | .pack _ w _ _ _ => widthLegal w
  | .unpack _ w _ _ => widthLegal w
  | .gpioSet _ => true
  | .gpioClr _ => true
  | .gpioPull _ _ => true
  | .gpioFsel _ _ => true
  | .gpioAlt3 _ => true
  | .gpioAlt5 _ => true
  | .bufWr _ _ => true
  | .bufRd _ => true
  | .bufAddr => true
  | .mboxCallFb => true
  | .mboxCallProp => true

end Sys2Proof
end

