-- ==== Sys2Proof/Decode.lean ====
section
/-! DEFINITION. The encoding of 30_encoding.md: the fields of CMD (R91), the opcode map (R93), the decoder, total on any
three words and rejecting by name (R94, R95), and the encoder. -/

namespace Sys2Proof

/-! ## The fields of CMD (R91) -/

def opOf (cmd : Word) : BitVec 4 := cmd.extractLsb' 0 4
def chOf (cmd : Word) : BitVec 4 := cmd.extractLsb' 4 4
def pinOf (cmd : Word) : BitVec 8 := cmd.extractLsb' 8 8
def widthOf (cmd : Word) : BitVec 6 := cmd.extractLsb' 16 6
def maxpOf (cmd : Word) : BitVec 8 := cmd.extractLsb' 22 8
def rsvOf (cmd : Word) : BitVec 2 := cmd.extractLsb' 30 2

/-- CMD put together from its fields, RSV = 0 (R91). -/
def cmdWord (op ch : BitVec 4) (pin : BitVec 8) (w : BitVec 6) (maxp : BitVec 8) : Word :=
  (0#2) ++ maxp ++ w ++ pin ++ ch ++ op

/-! ## The opcode numbers and channel ids (R93, R8) -/

def opPack : BitVec 4 := 0x1
def opUnpack : BitVec 4 := 0x2
def opGpioSet : BitVec 4 := 0x3
def opGpioClr : BitVec 4 := 0x4
def opGpioPull : BitVec 4 := 0x5
def opGpioFsel : BitVec 4 := 0x6
def opGpioAlt3 : BitVec 4 := 0x7
def opGpioAlt5 : BitVec 4 := 0x8
def opBufWr : BitVec 4 := 0x9
def opBufRd : BitVec 4 := 0xA
def opBufAddr : BitVec 4 := 0xB
def opMboxCall : BitVec 4 := 0xC

/-- CH_FRAMEBUFFER (R8). -/
def chFramebuffer : BitVec 4 := 1
/-- CH_PROPERTY (R8). -/
def chProperty : BitVec 4 := 8

/-! ## Decoding -/

/-- Why a CMD is illegal, after the clauses of R95. -/
inductive IllegalReason where
  /-- (a): OP is 0x0, 0xD, 0xE or 0xF. -/
  | reservedOpcode
  /-- (b): a field that must be 0 (R94), RSV among them, is not. -/
  | nonzeroUnusedField
  /-- (c): PACK or UNPACK with W = 0 or W > 32. -/
  | widthOutOfRange
  /-- (d): MBOX.CALL with CH neither 1 nor 8. -/
  | channelNotAdmitted
  deriving DecidableEq, Repr

/-- What the decoder answers: exactly one row of R93, or illegal (R95). -/
inductive Decoded where
  | legal (i : Instr)
  | illegal (r : IllegalReason)
  deriving DecidableEq, Repr

/-- R94 for PACK and UNPACK, which use PIN, W and MAXPIN, and R95 (c). -/
def decodePacker (cmd : Word) (i : Instr) : Decoded :=
  if chOf cmd ≠ 0 then .illegal .nonzeroUnusedField
  else if widthLegal (widthOf cmd) then .legal i
  else .illegal .widthOutOfRange

/-- R94 for the GPIO commands, which use only PIN. -/
def decodeGpio (cmd : Word) (i : Instr) : Decoded :=
  if chOf cmd = 0 ∧ widthOf cmd = 0 ∧ maxpOf cmd = 0 then .legal i else .illegal .nonzeroUnusedField

/-- R94 for the buffer commands, which use no field but OP. -/
def decodeBuffer (cmd : Word) (i : Instr) : Decoded :=
  if chOf cmd = 0 ∧ pinOf cmd = 0 ∧ widthOf cmd = 0 ∧ maxpOf cmd = 0 then .legal i
  else .illegal .nonzeroUnusedField

/-- R94 for MBOX.CALL, which uses CH, and R95 (d). -/
def decodeMboxCall (cmd : Word) : Decoded :=
  if pinOf cmd = 0 ∧ widthOf cmd = 0 ∧ maxpOf cmd = 0 then
    if chOf cmd = chFramebuffer then .legal .mboxCallFb
    else if chOf cmd = chProperty then .legal .mboxCallProp
    else .illegal .channelNotAdmitted
  else .illegal .nonzeroUnusedField

/-- The decoder (R90-R95): only CMD selects; the operand words are taken as R92 says, unsigned and whole. -/
def decode (cmd opa opb : Word) : Decoded :=
  if rsvOf cmd ≠ 0 then .illegal .nonzeroUnusedField
  else if opOf cmd = opPack then
    decodePacker cmd (.pack (pinOf cmd) (widthOf cmd) (maxpOf cmd) opa opb)
  else if opOf cmd = opUnpack then
    decodePacker cmd (.unpack (pinOf cmd) (widthOf cmd) (maxpOf cmd) opa)
  else if opOf cmd = opGpioSet then decodeGpio cmd (.gpioSet (pinOf cmd))
  else if opOf cmd = opGpioClr then decodeGpio cmd (.gpioClr (pinOf cmd))
  else if opOf cmd = opGpioPull then decodeGpio cmd (.gpioPull (pinOf cmd) opb)
  else if opOf cmd = opGpioFsel then decodeGpio cmd (.gpioFsel (pinOf cmd) opb)
  else if opOf cmd = opGpioAlt3 then decodeGpio cmd (.gpioAlt3 (pinOf cmd))
  else if opOf cmd = opGpioAlt5 then decodeGpio cmd (.gpioAlt5 (pinOf cmd))
  else if opOf cmd = opBufWr then decodeBuffer cmd (.bufWr opa opb)
  else if opOf cmd = opBufRd then decodeBuffer cmd (.bufRd opa)
  else if opOf cmd = opBufAddr then decodeBuffer cmd .bufAddr
  else if opOf cmd = opMboxCall then decodeMboxCall cmd
  else .illegal .reservedOpcode

/-- The decoder on a command. -/
def decodeCommand (c : Command) : Decoded := decode c.cmd c.opa c.opb

/-! ## Encoding (R91-R94, R101) -/

/-- The words of a command: each operand in the field or operand word of R93, every other field and word 0 (R101). -/
def encode : Instr → Command
  | .pack pin w maxp base value => ⟨cmdWord opPack 0 pin w maxp, base, value⟩
  | .unpack pin w maxp base => ⟨cmdWord opUnpack 0 pin w maxp, base, 0⟩
  | .gpioSet pin => ⟨cmdWord opGpioSet 0 pin 0 0, 0, 0⟩
  | .gpioClr pin => ⟨cmdWord opGpioClr 0 pin 0 0, 0, 0⟩
  | .gpioPull pin state => ⟨cmdWord opGpioPull 0 pin 0 0, 0, state⟩
  | .gpioFsel pin function => ⟨cmdWord opGpioFsel 0 pin 0 0, 0, function⟩
  | .gpioAlt3 pin => ⟨cmdWord opGpioAlt3 0 pin 0 0, 0, 0⟩
  | .gpioAlt5 pin => ⟨cmdWord opGpioAlt5 0 pin 0 0, 0, 0⟩
  | .bufWr index value => ⟨cmdWord opBufWr 0 0 0 0, index, value⟩
  | .bufRd index => ⟨cmdWord opBufRd 0 0 0 0, index, 0⟩
  | .bufAddr => ⟨cmdWord opBufAddr 0 0 0 0, 0, 0⟩
  | .mboxCallFb => ⟨cmdWord opMboxCall chFramebuffer 0 0 0, 0, 0⟩
  | .mboxCallProp => ⟨cmdWord opMboxCall chProperty 0 0 0, 0, 0⟩

/-! ## The mask and match pairs of R93 -/

/-- The mask of a command's row in the second table of R93. -/
def rowMask : Instr → Word
  | .pack _ _ _ _ _ => 0xC00000FF
  | .unpack _ _ _ _ => 0xC00000FF
  | .gpioSet _ => 0xFFFF00FF
  | .gpioClr _ => 0xFFFF00FF
  | .gpioPull _ _ => 0xFFFF00FF
  | .gpioFsel _ _ => 0xFFFF00FF
  | .gpioAlt3 _ => 0xFFFF00FF
  | .gpioAlt5 _ => 0xFFFF00FF
  | .bufWr _ _ => 0xFFFFFFFF
  | .bufRd _ => 0xFFFFFFFF
  | .bufAddr => 0xFFFFFFFF
  | .mboxCallFb => 0xFFFFFFFF
  | .mboxCallProp => 0xFFFFFFFF

/-- The match of a command's row in the second table of R93. -/
def rowMatch : Instr → Word
  | .pack _ _ _ _ _ => 0x00000001
  | .unpack _ _ _ _ => 0x00000002
  | .gpioSet _ => 0x00000003
  | .gpioClr _ => 0x00000004
  | .gpioPull _ _ => 0x00000005
  | .gpioFsel _ _ => 0x00000006
  | .gpioAlt3 _ => 0x00000007
  | .gpioAlt5 _ => 0x00000008
  | .bufWr _ _ => 0x00000009
  | .bufRd _ => 0x0000000A
  | .bufAddr => 0x0000000B
  | .mboxCallFb => 0x0000001C
  | .mboxCallProp => 0x0000008C

/-- The rows of R93 in the table's order: mask, match, and whether W must be 1 to 32. -/
def opcodeRows : List (Word × Word × Bool) :=
  [(0xC00000FF, 0x00000001, true), (0xC00000FF, 0x00000002, true),
   (0xFFFF00FF, 0x00000003, false), (0xFFFF00FF, 0x00000004, false),
   (0xFFFF00FF, 0x00000005, false), (0xFFFF00FF, 0x00000006, false),
   (0xFFFF00FF, 0x00000007, false), (0xFFFF00FF, 0x00000008, false),
   (0xFFFFFFFF, 0x00000009, false), (0xFFFFFFFF, 0x0000000A, false),
   (0xFFFFFFFF, 0x0000000B, false), (0xFFFFFFFF, 0x0000001C, false),
   (0xFFFFFFFF, 0x0000008C, false)]

/-- CMD is of a row of R93: its masked bits match and, for PACK and UNPACK, W is 1 to 32. -/
def rowAdmits (cmd : Word) (row : Word × Word × Bool) : Bool :=
  (cmd &&& row.1) == row.2.1 && (!row.2.2 || widthLegal (widthOf cmd))

/-! ## The host's table words -/

/-- The three command words whose bits are `w`, CMD lowest, in words of 32 bits; bits from `nbits` up are 0. -/
def tableCommand (nbits w : Nat) : Command :=
  let bits := w % 2 ^ nbits
  ⟨BitVec.ofNat 32 bits, BitVec.ofNat 32 (bits / 2 ^ 32), BitVec.ofNat 32 (bits / 2 ^ 64)⟩

/-- The instruction the decoder reads from an instruction whose bits are `w`, numbered as spec/opcode_table.json
numbers them: CMD is bits 31..0, OPA bits 63..32, OPB bits 95..64. None where the decoder says illegal. -/
def decodeTableWord (nbits w : Nat) : Option Instr :=
  match decodeCommand (tableCommand nbits w) with
  | .legal i => some i
  | .illegal _ => none

end Sys2Proof
end

