-- ==== Sys2Proof/Config.lean ====
section
/-! DEFINITION. The configuration parameters of 00_scope.md rule R8 (the OPEN ones are arguments of the model: fields
of this structure, held unchanged in State), the test configuration TCFG of 95_test_vectors.md, and the one free value
of the model. -/

namespace Sys2Proof

/-- The OPEN parameters of R8 and of the table "Open parameters, collected" of 92_eei_decisions.md.
No step changes them. Whether they are well-formed (R67) is `Config.wellFormed` in Machine/Configuration.lean. -/
structure Config where
  /-- First word address of the peripheral window (R8, R63). -/
  peripheralBase : Word
  /-- Last word address the window admits (R8, R63). -/
  peripheralEnd : Word
  /-- Function-select bank, 3-bit fields (R28). -/
  gpfselBase : Word
  /-- Output-set bank, 1-bit fields (R29). -/
  gpsetBase : Word
  /-- Output-clear bank, 1-bit fields (R29). -/
  gpclrBase : Word
  /-- Pull-state bank, 2-bit fields (R30). -/
  gppullBase : Word
  /-- Mailbox read register (R33). -/
  mboxReadAddr : Word
  /-- Mailbox status register, shared by both polls (R31). -/
  mboxStatusAddr : Word
  /-- Mailbox write register (R32). -/
  mboxWriteAddr : Word
  /-- Bits of the status register that read non-zero when the mailbox is full (R31). -/
  mboxFullMask : Word
  /-- Bits of the status register that read non-zero when there is nothing to read (R31). -/
  mboxEmptyMask : Word
  /-- Physical address of the mailbox buffer (R34). -/
  bufAddr : Word
  /-- Number of words of the mailbox buffer (R34). -/
  bufWords : Nat
  /-- Function-select code of alternate function 5 (R147); R67 asks that it be at most 7. -/
  fselAlt5 : Word
  /-- Where the host ports stand in the address map (92_eei_decisions.md D1): OPEN, and no rule uses it. -/
  ctrlPortBase : Word
  deriving DecidableEq, Repr

/-- PRESUMED (log 2): TCFG of 95_test_vectors.md section 0, BCM2711-like values the spec marks as general knowledge;
`ctrlPortBase` has no value anywhere and is 0. Unsafe to rely on: statements hold for every configuration. -/
def Config.tcfg : Config where
  peripheralBase := 0xFE000000
  peripheralEnd := 0xFEFFFFFC
  gpfselBase := 0xFE200000
  gpsetBase := 0xFE20001C
  gpclrBase := 0xFE200028
  gppullBase := 0xFE2000E4
  mboxReadAddr := 0xFE00B880
  mboxStatusAddr := 0xFE00B898
  mboxWriteAddr := 0xFE00B8A0
  mboxFullMask := 0x80000000
  mboxEmptyMask := 0x40000000
  bufAddr := 0x00081000
  bufWords := 36
  fselAlt5 := 2
  ctrlPortBase := 0

/-- DESIGN CHOICE (log 3), safe: the spec's "draw" (R71, R180, R230; 92_eei_decisions.md D19, D38). The `n`-th free value
of `w` bits. It has no body, so no proof can learn anything about it. -/
opaque Config.freeValue (w n : Nat) : BitVec w

end Sys2Proof
end

