-- ==== Sys2Proof/Machine/State.lean ====
section
/-! DEFINITION. Everything the spec gives the machine (10_state.md), as plain data; the two reasons a step can stop; the
state after reset (70_reset_and_hazards.md rule R230). -/

namespace Sys2Proof.Machine

/-- RES_CODE (R22), one constructor per code of 60_exceptions.md rule R200; `ResCode.bits` gives its number.
The codes 5-7 and 12-15, "never produced", are not representable (log 16). -/
inductive ResCode where
  /-- 0 NONE: reset only. -/
  | noResult
  /-- 1 OK. -/
  | ok
  /-- 2 ERR_RANGE. -/
  | errRange
  /-- 3 ERR_RESPONSE. -/
  | errResponse
  /-- 4 ERR_ILLEGAL. -/
  | errIllegal
  /-- 8 FATAL_WINDOW. -/
  | fatalWindow
  /-- 9 FATAL_ALIGN. -/
  | fatalAlign
  /-- 10 FATAL_BUF_INDEX. -/
  | fatalBufIndex
  /-- 11 FATAL_COMPOSITE. -/
  | fatalComposite
  deriving DecidableEq, Repr

/-- The controller's state-machine state (R23), in the order of its numbers 0 to 9. -/
inductive Phase where
  | idle
  | fpRead
  | fpWrite
  | bufAccess
  | mbWaitWritable
  | mbPublish
  | mbWaitReadable
  | mbCheckEcho
  | mbCheckResponse
  | faulted
  deriving DecidableEq, Repr

/-- The controller's latches (R24), under the spec's names. -/
@[ext]
structure Latches where
  op : BitVec 4
  ch : BitVec 4
  pin : BitVec 8
  w : BitVec 6
  maxp : BitVec 8
  base : Word
  val : Word
  idx : Word
  /-- Not wrapped: it can exceed `2^32 - 1` (R24). -/
  addr : BitVec 33
  shift : BitVec 5
  fmask : Word
  old : Word
  new : Word
  stage : BitVec 1
  db : Word
  echo : Word
  deriving DecidableEq, Repr

/-- DESIGN CHOICE (log 7), unsafe: R24 and R230 leave every latch unspecified at reset; the model's value is 0. -/
def Latches.zero : Latches :=
  { op := 0, ch := 0, pin := 0, w := 0, maxp := 0, base := 0, val := 0, idx := 0, addr := 0, shift := 0,
    fmask := 0, old := 0, new := 0, stage := 0, db := 0, echo := 0 }

/-- The agents of 00_scope.md rule R14. -/
inductive Agent where
  | host
  | ctrl
  | mboxHw
  | gpioHw
  deriving DecidableEq, Repr

/-- Read or write (R60). -/
inductive AccessKind where
  | read
  | write
  deriving DecidableEq, Repr

/-- By which primitive: MmioRead and MmioWrite (R62), or BufRead and BufWrite (R160). -/
inductive Space where
  | register
  | buffer
  deriving DecidableEq, Repr

/-- One access, recorded as R60 asks: "the performer, read or write, the address and the value". -/
structure Event where
  performer : Agent
  kind : AccessKind
  space : Space
  addr : Nat
  value : Word
  deriving DecidableEq, Repr

/-- Which agent moves next (R13, R14), and for the environment's agents its move (43_mailbox_channel.md rule R180). -/
inductive Turn where
  /-- The block's turn: its controller step, or in IDLE the Issue HOST is waiting to make (R96). -/
  | block
  /-- MBOX_HW or GPIO_HW fixes the value returned by the next read at `addr` (R180 (a), (b); D19). -/
  | answer (addr : Nat) (value : Word)
  /-- MBOX_HW absorbs the oldest doorbell handed to it (R180 (c)). -/
  | absorb
  /-- MBOX_HW writes buffer word `index` (R180 (d)), in the phases of R72 only. -/
  | gpuWrite (index : Nat) (value : Word)
  /-- Reset is applied (R230). -/
  | reset
  deriving DecidableEq, Repr

/-- Memory by bytes (R35, R64): the bytes of the address space that hold a known value, addresses strictly rising.
An address not listed holds no known value. -/
abbrev Memory := List Host.Cell

/-- What an address that memory does not list reads as: no known value, so a read there is a draw
(R71, R180; 92_eei_decisions.md D19, D38; log 5). -/
def Memory.unlisted : Option Byte := none

/-- The machine's state. -/
@[ext]
structure State where
  /-- The configuration the model takes as its argument (R8); no step changes it. -/
  cfg : Config
  /-- R23. -/
  phase : Phase
  /-- RES_CODE (R22). -/
  resCode : ResCode
  /-- RES_DATA (R22). -/
  resData : Word
  /-- RES_INFO (R22). -/
  resInfo : Word
  /-- R24. -/
  lat : Latches
  /-- The mailbox buffer (R34) and the registers that behave as plain storage (R181 `RamLike`; log 4). -/
  mem : Memory
  /-- The values the environment has fixed for coming reads, by address, oldest first (R180 (a), (b); R36; log 3). -/
  answers : List (Nat × Word)
  /-- The words handed to MBOX_HW by writes to MBOX_WRITE_ADDR and not yet absorbed, oldest first (R66 (c), R180 (c)). -/
  inbox : List Word
  /-- The Issue actions HOST waits to make, oldest first (R21, R96). -/
  port : List Command
  /-- Which agents move next; when empty, the block (log 8). -/
  turns : List Turn
  /-- How many free values have been used (log 3). -/
  draws : Nat
  /-- Every access made, newest first (R60). -/
  events : List Event
  deriving DecidableEq, Repr

/-- The state after reset at power-up (R230): phase IDLE, RES_* = 0. The latches are the model's (log 7), nothing is
listed in memory (D38), the environment has done nothing, and the configuration is TCFG (log 2). -/
def State.reset : State :=
  { cfg := Config.tcfg, phase := .idle, resCode := .noResult, resData := 0, resInfo := 0, lat := Latches.zero,
    mem := [], answers := [], inbox := [], port := [], turns := [], draws := 0, events := [] }

/-- Why the machine stops: it is the block's turn and `phase` is FAULTED, where "the block takes no step" (R202). The
constructors name the recorded fatal code and carry RES_INFO. All are safe: no later claim can be proved. -/
inductive Fault where
  /-- FATAL_WINDOW is recorded; raised by the block's turn in FAULTED; safe. -/
  | fatalWindow (info : Word)
  /-- FATAL_ALIGN is recorded; raised by the block's turn in FAULTED; safe. -/
  | fatalAlign (info : Word)
  /-- FATAL_BUF_INDEX is recorded; raised by the block's turn in FAULTED; safe. -/
  | fatalBufIndex (info : Word)
  /-- FATAL_COMPOSITE is recorded; raised by the block's turn in FAULTED; safe. -/
  | fatalComposite (info : Word)
  /-- FAULTED with a code that is not fatal, a state no run reaches; raised by the block's turn in FAULTED; safe. -/
  | noFatalRecord (code : ResCode) (info : Word)
  deriving DecidableEq, Repr

/-- Why a step has no meaning. -/
inductive Refusal where
  /-- An instruction without a meaning in the model; raised by exec's arms only; safe. -/
  | notModelled (mnemonic : String)
  /-- The configuration is ill-formed (R67: "it has no run at all"); raised by step; safe. -/
  | illFormedConfiguration
  deriving DecidableEq, Repr

end Sys2Proof.Machine
end

