-- ==== Sys2Proof/Machine/Configuration.lean ====
section
/-! DEFINITION. What the configuration decides (20_memory.md rules R62, R63, R67) and the constants RPP fixes
(00_scope.md rule R8). -/

namespace Sys2Proof.Machine

/-! ## Constants (R8) -/

/-- GPIO_MAX_PIN. -/
def gpioMaxPin : BitVec 8 := 53
/-- RESPONSE_FLAG (R100). -/
def responseFlag : Word := 0x80000000
/-- FSEL_ALT3. -/
def fselAlt3 : Word := 7
/-- PULL_NONE. -/
def pullNone : Word := 0
/-- Function-select field width (R9). -/
def fselWidth : BitVec 6 := 3
/-- Set and clear field width (R9). -/
def setClrWidth : BitVec 6 := 1
/-- Pull-state field width (R9). -/
def pullWidth : BitVec 6 := 2

/-! ## Window and well-formedness -/

/-- R63: on the exact natural-number address. -/
def inWindow (c : Config) (a : Nat) : Bool := c.peripheralBase.toNat ≤ a && a ≤ c.peripheralEnd.toNat

/-- A register address of R67: a multiple of 4 inside the window. -/
def alignedInWindow (c : Config) (a : Nat) : Bool := a % 4 == 0 && inWindow c a

/-- A bank of R67: its base a multiple of 4 and its last register, for pin 53, inside the window. Its first register is
inside the window too, as 41_gpio.md rule R141 and 92_eei_decisions.md D30 need (log 12). -/
def bankWellFormed (c : Config) (base : Word) (last : Nat) : Bool :=
  alignedInWindow c base.toNat && inWindow c (base.toNat + last)

/-- R67: the configurations that have a run. (`PERIPHERAL_END < 2^32` holds by its type.) -/
def configWellFormed (c : Config) : Bool :=
  (c.peripheralBase.toNat ≤ c.peripheralEnd.toNat && c.peripheralBase.toNat % 4 == 0 && c.peripheralEnd.toNat % 4 == 0)
  && (alignedInWindow c c.mboxReadAddr.toNat && alignedInWindow c c.mboxStatusAddr.toNat
    && alignedInWindow c c.mboxWriteAddr.toNat)
  && (bankWellFormed c c.gpfselBase 0x14 && bankWellFormed c c.gpsetBase 0x4 && bankWellFormed c c.gpclrBase 0x4
    && bankWellFormed c c.gppullBase 0xC)
  && (c.mboxFullMask != 0 && c.mboxEmptyMask != 0)
  && (c.bufAddr.toNat % 16 == 0 && 2 ≤ c.bufWords && c.bufAddr.toNat + 4 * c.bufWords ≤ 2 ^ 32)
  && c.fselAlt5.toNat ≤ 7

/-- Address of buffer word `i` (R34, R160). -/
def bufWordAddr (c : Config) (i : Nat) : Nat := c.bufAddr.toNat + 4 * i

/-- The address lies in the mailbox buffer (R34). -/
def inBuffer (c : Config) (a : Nat) : Bool := c.bufAddr.toNat ≤ a && a < c.bufAddr.toNat + 4 * c.bufWords

/-- The checks of MmioRead and MmioWrite (R62), alignment before the window (R205): the fatal code, if one fails. -/
def mmioFault (c : Config) (a : Nat) : Option ResCode :=
  if a % 4 ≠ 0 then some .fatalAlign
  else if inWindow c a then none
  else some .fatalWindow

end Sys2Proof.Machine
end

