-- ==== Sys2Proof/Machine/Memory.lean ====
section
/-! DEFINITION. Memory by bytes and by aligned words (20_memory.md rules R60, R64), byte order little-endian. -/

namespace Sys2Proof.Machine

/-- The canonical form: addresses strictly rising and below 2^32. An unlisted address has no value, so no entry can
equal what it reads as. -/
def Memory.wf (m : Memory) : Bool :=
  decide (m.Pairwise fun c d => c.1 < d.1) && m.all fun c => decide (c.1 < 2 ^ 32)

/-- The byte at an address, if memory lists it. -/
def Memory.byteAt : Memory → Nat → Option Byte
  | [], _ => Memory.unlisted
  | (b, x) :: m, a => if a = b then some x else Memory.byteAt m a

/-- Memory with one byte written, in canonical form. -/
def Memory.setByte : Memory → Nat → Byte → Memory
  | [], a, x => [(a, x)]
  | (b, y) :: m, a, x =>
    if a < b then (a, x) :: (b, y) :: m
    else if a = b then (a, x) :: m
    else (b, y) :: Memory.setByte m a x

/-- Byte `k` of a word: bits `[8k+7 : 8k]` (R64). -/
def byteOfWord (v : Word) (k : Nat) : Byte := v.extractLsb' (8 * k) 8

/-- The word of four bytes, lowest address first (R64). -/
def wordOfBytes (b0 b1 b2 b3 : Byte) : Word := b3 ++ b2 ++ b1 ++ b0

/-- The word at an address, if memory lists its four bytes. -/
def Memory.wordAt (m : Memory) (a : Nat) : Option Word :=
  match m.byteAt a, m.byteAt (a + 1), m.byteAt (a + 2), m.byteAt (a + 3) with
  | some b0, some b1, some b2, some b3 => some (wordOfBytes b0 b1 b2 b3)
  | _, _, _, _ => none

/-- Memory with one word written. -/
def Memory.setWord (m : Memory) (a : Nat) (v : Word) : Memory :=
  (((m.setByte a (byteOfWord v 0)).setByte (a + 1) (byteOfWord v 1)).setByte (a + 2) (byteOfWord v 2)).setByte
    (a + 3) (byteOfWord v 3)

end Sys2Proof.Machine
end

