-- ==== Sys2Proof/Machine/Ops.lean ====
section
/-! DEFINITION. The operations the meanings share: memory accesses (20_memory.md rules R60-R66, 42_mailbox_buffer.md rule
R160), ending a command (60_exceptions.md rules R201, R202), latching operands (30_encoding.md rule R96) and reset
(70_reset_and_hazards.md rule R230). -/

namespace Sys2Proof.Machine

/-- What a meaning answers. -/
abbrev Result := Host.Outcome State Fault Refusal

/-- `trunc32` (R11). -/
def trunc32 (n : Nat) : Word := BitVec.ofNat 32 n

/-! ## Draws: the values the environment returns -/

/-- The value the environment has fixed for the next read at `a` (R180 (a), (b)), if it has fixed one. -/
def pendingAnswer : List (Nat × Word) → Nat → Option Word
  | [], _ => none
  | (b, v) :: l, a => if a = b then some v else pendingAnswer l a

/-- The answers left after the next read at `a`: its own is consumed (R66 (d)), the others stay. -/
def dropAnswer : List (Nat × Word) → Nat → List (Nat × Word)
  | [], _ => []
  | (b, v) :: l, a => if a = b then l else (b, v) :: dropAnswer l a

/-- A draw for a read at `a`: the value the environment has fixed, else a free value (log 3). -/
def drawAt (a : Nat) (s : State) : Word :=
  match pendingAnswer s.answers a with
  | some v => v
  | none => Config.freeValue 32 s.draws

/-- The state after that draw. -/
def afterDraw (a : Nat) (s : State) : State :=
  match pendingAnswer s.answers a with
  | some _ => { s with answers := dropAnswer s.answers a }
  | none => { s with draws := s.draws + 1 }

/-! ## Raw accesses (R60) -/

/-- What MemRead returns at `a`: the stored word where memory holds one (the buffer, R71; a `RamLike` register, R181),
else a draw (D19, D38). -/
def readValue (a : Nat) (s : State) : Word :=
  match s.mem.wordAt a with
  | some v => v
  | none => drawAt a s

/-- The state with an access recorded (R60). -/
def record (e : Event) (s : State) : State := { s with events := e :: s.events }

/-- The state after MemRead at `a`. -/
def afterRead (who : Agent) (sp : Space) (a : Nat) (s : State) : State :=
  record ⟨who, .read, sp, a, readValue a s⟩
    (match s.mem.wordAt a with
     | some _ => s
     | none => afterDraw a s)

/-- Whether a write at `a` is kept in memory: a buffer word (R66 (g)), or a register memory already lists as plain
storage (`RamLike`, log 4). Any other write is absorbed by the device (R14). -/
def storesAt (a : Nat) (s : State) : Bool := inBuffer s.cfg a || (s.mem.wordAt a).isSome

/-- The storing part of MemWrite. -/
def store (a : Nat) (v : Word) (s : State) : State :=
  if storesAt a s then { s with mem := s.mem.setWord a v } else s

/-- R66 (c): "A write to MBOX_WRITE_ADDR has the side effect of handing the doorbell to MBOX_HW". -/
def handOver (a : Nat) (v : Word) (s : State) : State :=
  if a = s.cfg.mboxWriteAddr.toNat then { s with inbox := s.inbox ++ [v] } else s

/-- MemWrite (R60). -/
def memWrite (who : Agent) (sp : Space) (a : Nat) (v : Word) (s : State) : State :=
  record ⟨who, .write, sp, a, v⟩ (handOver a v (store a v s))

/-! ## Ending a command -/

/-- The state with another phase. -/
def setPhase (p : Phase) (s : State) : State := { s with phase := p }

/-- `complete(code, data, info)` (R201). -/
def complete (code : ResCode) (data info : Word) (s : State) : State :=
  { s with resCode := code, resData := data, resInfo := info, phase := .idle }

/-- `raise Fatal(code, info)` (R202): what the block's exceptions do, one operation. There is no handler, no saved pc and
no mode (R208); the record is RES_CODE and RES_INFO. The way back is `applyReset` (R209). -/
def raiseFatal (code : ResCode) (info : Word) (s : State) : State :=
  { s with resCode := code, resData := 0, resInfo := info, phase := .faulted }

/-- The completion of an illegal command (R95): `complete(ERR_ILLEGAL, 0, CMD)`. -/
def completeIllegal (cmd : Word) (s : State) : State := complete .errIllegal 0 cmd s

/-! ## Checked register accesses (R62) and buffer accesses (R160) -/

/-- MmioRead at `a`, then `k` on the value read and the state after the access; when a check fails no access is made. -/
def mmioRead (a : Nat) (s : State) (k : Word → State → State) : State :=
  match mmioFault s.cfg a with
  | some code => raiseFatal code (trunc32 a) s
  | none => k (readValue a s) (afterRead .ctrl .register a s)

/-- MmioWrite of `v` at `a`, then `k`; when a check fails no access is made. -/
def mmioWrite (a : Nat) (v : Word) (s : State) (k : State → State) : State :=
  match mmioFault s.cfg a with
  | some code => raiseFatal code (trunc32 a) s
  | none => k (memWrite .ctrl .register a v s)

/-- BufRead of word `i`, then `k`. Not window-checked (D25). -/
def bufRead (i : Nat) (s : State) (k : Word → State → State) : State :=
  k (readValue (bufWordAddr s.cfg i) s) (afterRead .ctrl .buffer (bufWordAddr s.cfg i) s)

/-- BufWrite of word `i` by `who`. Not window-checked (D25). -/
def bufWrite (who : Agent) (i : Nat) (v : Word) (s : State) : State :=
  memWrite who .buffer (bufWordAddr s.cfg i) v s

/-! ## Latching operands (R96) -/

/-- The state with other latches. -/
def setLat (l : Latches) (s : State) : State := { s with lat := l }

/-- The fields of CMD latched (R96). -/
def latchCmd (op ch : BitVec 4) (pin : BitVec 8) (w : BitVec 6) (maxp : BitVec 8) (s : State) : State :=
  setLat { s.lat with op := op, ch := ch, pin := pin, w := w, maxp := maxp } s

/-- OPA latched (R96): `L.base <- OPA; L.idx <- OPA`. -/
def latchOpa (opa : Word) (s : State) : State := setLat { s.lat with base := opa, idx := opa } s

/-- OPB latched (R96): `L.val <- OPB`. -/
def latchOpb (opb : Word) (s : State) : State := setLat { s.lat with val := opb } s

/-! ## Reset (R230) -/

/-- "every latch of 10_state.md rule R24 becomes unspecified": sixteen free values, from number `n` on (log 7). -/
def unspecifiedLatches (n : Nat) : Latches :=
  { op := Config.freeValue 4 n, ch := Config.freeValue 4 (n + 1), pin := Config.freeValue 8 (n + 2),
    w := Config.freeValue 6 (n + 3), maxp := Config.freeValue 8 (n + 4), base := Config.freeValue 32 (n + 5),
    val := Config.freeValue 32 (n + 6), idx := Config.freeValue 32 (n + 7), addr := Config.freeValue 33 (n + 8),
    shift := Config.freeValue 5 (n + 9), fmask := Config.freeValue 32 (n + 10), old := Config.freeValue 32 (n + 11),
    new := Config.freeValue 32 (n + 12), stage := Config.freeValue 1 (n + 13), db := Config.freeValue 32 (n + 14),
    echo := Config.freeValue 32 (n + 15) }

/-- Reset of a running machine (R230): the block's outputs and phase at their reset values, the latches unspecified; the
registers, MBOX_HW's queues and the buffer untouched, every access already made stays made. -/
def applyReset (s : State) : State :=
  { s with phase := .idle, resCode := .noResult, resData := 0, resInfo := 0,
           lat := unspecifiedLatches s.draws, draws := s.draws + 16 }

end Sys2Proof.Machine
end

