-- ==== Sys2Proof/Machine/Operands.lean ====
section
/-! DEFINITION. The datapath of the block: the field geometry (R120), the range check (R121), merge and extract
(R122, R123) of 40_field_packer.md, and the doorbell (30_encoding.md rule R97). -/

namespace Sys2Proof.Machine

/-! ## Geometry (R27, R120), on natural numbers (R11) -/

/-- `fpr`, fields per register. -/
def fieldsPerReg (w : Nat) : Nat := 32 / w

/-- `idx`, the register index of pin `p`. -/
def regIndex (p w : Nat) : Nat := p / fieldsPerReg w

/-- `shift`, the bit offset of pin `p`'s field. -/
def fieldShift (p w : Nat) : Nat := p % fieldsPerReg w * w

/-- `addr`, the register address, not wrapped (D15). -/
def fieldAddr (p w base : Nat) : Nat := base + regIndex p w * 4

/-- `fmask = 2^w - 1`. -/
def fieldMask (w : Nat) : Nat := 2 ^ w - 1

/-! ## Range check (R121) -/

/-- Bit 0 of `bad`: the pin is above the maximum. -/
def pinBad (pin maxp : BitVec 8) : Bool := maxp.toNat < pin.toNat

/-- Bit 1 of `bad`: the value does not fit in `w` bits. -/
def valueBad (v : Word) (w : BitVec 6) : Bool := fieldMask w.toNat < v.toNat

/-- `rangecheck`: 0 means valid. -/
def rangeCheck (pin : BitVec 8) (v : Word) (w : BitVec 6) (maxp : BitVec 8) : Word :=
  (if pinBad pin maxp then 1 else 0) ||| (if valueBad v w then 2 else 0)

/-! ## Merge and extract (R122, R123), on 32-bit words -/

/-- `merge(old, v, shift, fmask)`. -/
def mergeField (old v : Word) (shift : Nat) (fmask : Word) : Word :=
  (old &&& ~~~(fmask <<< shift)) ||| (v <<< shift)

/-- `extract(word, shift, fmask)`. -/
def extractField (word : Word) (shift : Nat) (fmask : Word) : Word := (word >>> shift) &&& fmask

/-! ## The channel multiplexer (R97) -/

/-- The doorbell `(BUF_ADDR & 0xFFFFFFF0) | ch`. -/
def doorbell (c : Config) (ch : BitVec 4) : Word := (c.bufAddr &&& 0xFFFFFFF0) ||| ch.setWidth 32

/-! ## The geometry latches -/

/-- `L.addr <- addr; L.shift <- shift; L.fmask <- fmask; phase <- FP_READ` (R124, R127, R145), from `L.pin`, `L.w` and
`L.base`. -/
def startAccess (s : State) : State :=
  setPhase .fpRead (setLat
    { s.lat with
        addr := BitVec.ofNat 33 (fieldAddr s.lat.pin.toNat s.lat.w.toNat s.lat.base.toNat),
        shift := BitVec.ofNat 5 (fieldShift s.lat.pin.toNat s.lat.w.toNat),
        fmask := BitVec.ofNat 32 (fieldMask s.lat.w.toNat) } s)

end Sys2Proof.Machine
end

