-- ==== Sys2Proof/Machine/Buffer.lean ====
section
/-! DEFINITION. The mailbox buffer accessors BUF.WR, BUF.RD and BUF.ADDR (42_mailbox_buffer.md rules R161-R163): their
Issue steps. The BUF_ACCESS step is in Machine/Phases.lean. -/

namespace Sys2Proof.Machine

/-- The issue part of R161 and R162: the index is checked, "fatal, with no access". -/
def bufferIssue (s : State) : State :=
  if s.cfg.bufWords ≤ s.lat.idx.toNat then raiseFatal .fatalBufIndex s.lat.idx s else setPhase .bufAccess s

/-- BUF.WR (R161). -/
def execBufWr (index value : Word) (s : State) : Result :=
  .next (bufferIssue (latchOpb value (latchOpa index (latchCmd opBufWr 0 0 0 0 s))))

/-- BUF.RD (R162). -/
def execBufRd (index : Word) (s : State) : Result :=
  .next (bufferIssue (latchOpa index (latchCmd opBufRd 0 0 0 0 s)))

/-- BUF.ADDR (R163): `complete(OK, BUF_ADDR, 0)` in the Issue step, with no memory access. -/
def execBufAddr (s : State) : Result :=
  .next (complete .ok s.cfg.bufAddr 0 (latchCmd opBufAddr 0 0 0 0 s))

end Sys2Proof.Machine
end

