-- ==== Sys2Proof/Machine/FieldPacker.lean ====
section
/-! DEFINITION. The field packer's commands, PACK and UNPACK (40_field_packer.md rules R124, R127): their Issue steps.
Their later steps are FP_READ and FP_WRITE in Machine/Phases.lean. -/

namespace Sys2Proof.Machine

/-- The issue part of R124, from the latches; the single GPIO commands share it (R140). -/
def packIssue (s : State) : State :=
  if rangeCheck s.lat.pin s.lat.val s.lat.w s.lat.maxp ≠ 0 then
    complete .errRange 0 (rangeCheck s.lat.pin s.lat.val s.lat.w s.lat.maxp) s
  else startAccess s

/-- The issue part of R127: only the pin is checked. -/
def unpackIssue (s : State) : State :=
  if pinBad s.lat.pin s.lat.maxp then complete .errRange 0 1 s else startAccess s

/-- PACK (R124). A width outside 1 to 32 "never reaches this rule: it is ERR_ILLEGAL" (log 14). -/
def execPack (pin : BitVec 8) (w : BitVec 6) (maxp : BitVec 8) (base value : Word) (s : State) : Result :=
  if widthLegal w then
    .next (packIssue (latchOpb value (latchOpa base (latchCmd opPack 0 pin w maxp s))))
  else .next (completeIllegal (encode (.pack pin w maxp base value)).cmd s)

/-- UNPACK (R127). OPB is ignored. -/
def execUnpack (pin : BitVec 8) (w : BitVec 6) (maxp : BitVec 8) (base : Word) (s : State) : Result :=
  if widthLegal w then
    .next (unpackIssue (latchOpa base (latchCmd opUnpack 0 pin w maxp s)))
  else .next (completeIllegal (encode (.unpack pin w maxp base)).cmd s)

end Sys2Proof.Machine
end

