-- ==== Sys2Proof/Machine/Gpio.lean ====
section
/-! DEFINITION. The GPIO specialisations (41_gpio.md): the four single commands, each a PACK with fixed operands (R140),
and the composite sequencer of GPIO.ALT3 and GPIO.ALT5 (R145). -/

namespace Sys2Proof.Machine

/-- The GPIO sub-operation loader (R24, R140): the fixed operands of a command on a bank, GPIO_MAX_PIN as maximum. -/
def loadGpio (base : Word) (w : BitVec 6) (v : Word) (s : State) : State :=
  setLat { s.lat with base := base, w := w, maxp := gpioMaxPin, val := v } s

/-- GPIO.SET (R141): packs 1 into the set bank (D11). -/
def execGpioSet (pin : BitVec 8) (s : State) : Result :=
  .next (packIssue (loadGpio s.cfg.gpsetBase setClrWidth 1 (latchCmd opGpioSet 0 pin 0 0 s)))

/-- GPIO.CLR (R142): packs 1 into the clear bank (D11). -/
def execGpioClr (pin : BitVec 8) (s : State) : Result :=
  .next (packIssue (loadGpio s.cfg.gpclrBase setClrWidth 1 (latchCmd opGpioClr 0 pin 0 0 s)))

/-- GPIO.PULL (R143): packs the state of OPB into the pull bank. -/
def execGpioPull (pin : BitVec 8) (state : Word) (s : State) : Result :=
  .next (packIssue (loadGpio s.cfg.gppullBase pullWidth state (latchOpb state (latchCmd opGpioPull 0 pin 0 0 s))))

/-- GPIO.FSEL (R144): packs the function code of OPB into the function-select bank. -/
def execGpioFsel (pin : BitVec 8) (function : Word) (s : State) : Result :=
  .next (packIssue
    (loadGpio s.cfg.gpfselBase fselWidth function (latchOpb function (latchCmd opGpioFsel 0 pin 0 0 s))))

/-! ## The composite sequencer (R145) -/

/-- RES_INFO of FATAL_COMPOSITE: `(stage << 8) | bad`. -/
def compositeInfo (stage : Nat) (bad : Word) : Word := BitVec.ofNat 32 (stage * 256) ||| bad

/-- `L.stage <- v`. -/
def latchStage (v : BitVec 1) (s : State) : State := setLat { s.lat with stage := v } s

/-- The issue step of R145: stage 0 is `GPIO.PULL pin, PULL_NONE`. -/
def compositeIssue (s : State) : State :=
  if pinBad s.lat.pin gpioMaxPin then raiseFatal .fatalComposite (compositeInfo 0 1) s
  else startAccess (loadGpio s.cfg.gppullBase pullWidth pullNone (latchStage 0 s))

/-- `code` of R145: FSEL_ALT3 for ALT3 (R146), FSEL_ALT5 for ALT5 (R147), by the running command's opcode. -/
def compositeCode (s : State) : Word := if s.lat.op = opGpioAlt3 then fselAlt3 else s.cfg.fselAlt5

/-- "begin stage 1" of R145: stage 1 is `GPIO.FSEL pin, code`. It happens within the stage-0 FP_WRITE step. -/
def beginStage1 (s : State) : State :=
  if rangeCheck s.lat.pin (compositeCode s) fselWidth gpioMaxPin ≠ 0 then
    raiseFatal .fatalComposite (compositeInfo 1 (rangeCheck s.lat.pin (compositeCode s) fselWidth gpioMaxPin))
      (loadGpio s.cfg.gpfselBase fselWidth (compositeCode s) (latchStage 1 s))
  else startAccess (loadGpio s.cfg.gpfselBase fselWidth (compositeCode s) (latchStage 1 s))

/-- GPIO.ALT3 (R146). -/
def execGpioAlt3 (pin : BitVec 8) (s : State) : Result :=
  .next (compositeIssue (latchCmd opGpioAlt3 0 pin 0 0 s))

/-- GPIO.ALT5 (R147). -/
def execGpioAlt5 (pin : BitVec 8) (s : State) : Result :=
  .next (compositeIssue (latchCmd opGpioAlt5 0 pin 0 0 s))

end Sys2Proof.Machine
end

