-- ==== Sys2Proof/Machine/Mailbox.lean ====
section
/-! DEFINITION. The mailbox channel call MBOX.CALL (43_mailbox_channel.md rule R171): its Issue step, the channel
multiplexer. The phases of R172-R176 are in Machine/Phases.lean. -/

namespace Sys2Proof.Machine

/-- The issue part of R171: the doorbell is assembled, `phase <- MB_WAIT_WRITABLE`. -/
def mboxIssue (s : State) : State :=
  setPhase .mbWaitWritable (setLat { s.lat with db := doorbell s.cfg s.lat.ch } s)

/-- MBOX.CALL 1, the Framebuffer channel (R171). -/
def execMboxCallFb (s : State) : Result := .next (mboxIssue (latchCmd opMboxCall chFramebuffer 0 0 0 s))

/-- MBOX.CALL 8, the Property channel (R171). -/
def execMboxCallProp (s : State) : Result := .next (mboxIssue (latchCmd opMboxCall chProperty 0 0 0 s))

end Sys2Proof.Machine
end

