-- ==== Sys2Proof/Machine/Dispatch.lean ====
section
/-! DEFINITION. The meaning of each command's Issue step (30_encoding.md rule R96), one arm per row of R93. -/

namespace Sys2Proof.Machine

def exec (i : Instr) (s : State) : Host.Outcome State Fault Refusal :=
  match i with
  | .pack pin w maxp base value => Sys2Proof.Machine.execPack pin w maxp base value s
  | .unpack pin w maxp base => Sys2Proof.Machine.execUnpack pin w maxp base s
  | .gpioSet pin => Sys2Proof.Machine.execGpioSet pin s
  | .gpioClr pin => Sys2Proof.Machine.execGpioClr pin s
  | .gpioPull pin state => Sys2Proof.Machine.execGpioPull pin state s
  | .gpioFsel pin function => Sys2Proof.Machine.execGpioFsel pin function s
  | .gpioAlt3 pin => Sys2Proof.Machine.execGpioAlt3 pin s
  | .gpioAlt5 pin => Sys2Proof.Machine.execGpioAlt5 pin s
  | .bufWr index value => Sys2Proof.Machine.execBufWr index value s
  | .bufRd index => Sys2Proof.Machine.execBufRd index s
  | .bufAddr => Sys2Proof.Machine.execBufAddr s
  | .mboxCallFb => Sys2Proof.Machine.execMboxCallFb s
  | .mboxCallProp => Sys2Proof.Machine.execMboxCallProp s

end Sys2Proof.Machine
end

