-- ==== Sys2Proof/Machine/Flags.lean ====
section
/-! DEFINITION. The outcome indicators: the numbers of RES_CODE (60_exceptions.md rule R200), BUSY, FAULT and the packed
STATUS view (10_state.md rule R22), the numbers of the phases (R23). The block has no condition flags (R26). -/

namespace Sys2Proof.Machine

/-- The number of a result code (R200). -/
def ResCode.bits : ResCode → BitVec 4
  | .noResult => 0
  | .ok => 1
  | .errRange => 2
  | .errResponse => 3
  | .errIllegal => 4
  | .fatalWindow => 8
  | .fatalAlign => 9
  | .fatalBufIndex => 10
  | .fatalComposite => 11

/-- Whether a code is of the kind "fatal" in R200. -/
def ResCode.isFatal : ResCode → Bool
  | .noResult => false
  | .ok => false
  | .errRange => false
  | .errResponse => false
  | .errIllegal => false
  | .fatalWindow => true
  | .fatalAlign => true
  | .fatalBufIndex => true
  | .fatalComposite => true

/-- The number of a phase (R23), "never visible outside the block". -/
def Phase.number : Phase → Nat
  | .idle => 0
  | .fpRead => 1
  | .fpWrite => 2
  | .bufAccess => 3
  | .mbWaitWritable => 4
  | .mbPublish => 5
  | .mbWaitReadable => 6
  | .mbCheckEcho => 7
  | .mbCheckResponse => 8
  | .faulted => 9

/-- FAULT (R22): 1 exactly when `phase = FAULTED`. -/
def State.faultFlag (s : State) : Bool := s.phase == .faulted

/-- BUSY (R22): 1 exactly when `phase` is neither IDLE nor FAULTED. -/
def State.busy (s : State) : Bool := s.phase != .idle && s.phase != .faulted

/-- The packed view STATUS (R22): bit 0 BUSY, bit 1 FAULT, bits [7:4] RES_CODE, every other bit 0. -/
def State.status (s : State) : Word :=
  (0#24) ++ s.resCode.bits ++ (0#2) ++ BitVec.ofBool s.faultFlag ++ BitVec.ofBool s.busy

/-- The fault the block's turn answers in FAULTED (R202), named after the recorded code. -/
def haltFault (s : State) : Fault :=
  match s.resCode with
  | .fatalWindow => .fatalWindow s.resInfo
  | .fatalAlign => .fatalAlign s.resInfo
  | .fatalBufIndex => .fatalBufIndex s.resInfo
  | .fatalComposite => .fatalComposite s.resInfo
  | .noResult => .noFatalRecord .noResult s.resInfo
  | .ok => .noFatalRecord .ok s.resInfo
  | .errRange => .noFatalRecord .errRange s.resInfo
  | .errResponse => .noFatalRecord .errResponse s.resInfo
  | .errIllegal => .noFatalRecord .errIllegal s.resInfo

end Sys2Proof.Machine
end

