-- ==== Sys2Proof/Machine/Phases.lean ====
section
/-! DEFINITION. The controller's steps after Issue, one per phase (10_state.md rules R23, R25): FP_READ and FP_WRITE
(40_field_packer.md rules R125, R126), BUF_ACCESS (42_mailbox_buffer.md rules R161, R162), and the five phases of a
mailbox call (43_mailbox_channel.md rules R172-R176). Each makes at most one access (00_scope.md rule R13). -/

namespace Sys2Proof.Machine

/-- FP_READ (R125). -/
def fpReadStep (s : State) : State :=
  mmioRead s.lat.addr.toNat s fun old s1 =>
    if s1.lat.op = opUnpack then
      complete .ok (extractField old s1.lat.shift.toNat s1.lat.fmask) (trunc32 s1.lat.addr.toNat)
        (setLat { s1.lat with old := old } s1)
    else
      setPhase .fpWrite (setLat
        { s1.lat with old := old, new := mergeField old s1.lat.val s1.lat.shift.toNat s1.lat.fmask } s1)

/-- FP_WRITE (R126). -/
def fpWriteStep (s : State) : State :=
  mmioWrite s.lat.addr.toNat s.lat.new s fun s1 =>
    if (s1.lat.op = opGpioAlt3 ∨ s1.lat.op = opGpioAlt5) ∧ s1.lat.stage = 0 then beginStage1 s1
    else complete .ok s1.lat.new (trunc32 s1.lat.addr.toNat) s1

/-- BUF_ACCESS (R161, R162). Only BUF.WR and BUF.RD reach this phase (log 15). -/
def bufAccessStep (s : State) : State :=
  if s.lat.op = opBufWr then
    complete .ok s.lat.val s.lat.idx (bufWrite .ctrl s.lat.idx.toNat s.lat.val s)
  else
    bufRead s.lat.idx.toNat s fun d s1 => complete .ok d s1.lat.idx s1

/-- MB_WAIT_WRITABLE (R172): the write-poll. -/
def waitWritableStep (s : State) : State :=
  mmioRead s.cfg.mboxStatusAddr.toNat s fun st s1 =>
    if st &&& s1.cfg.mboxFullMask ≠ 0 then setPhase .mbWaitWritable s1 else setPhase .mbPublish s1

/-- MB_PUBLISH (R173). -/
def publishStep (s : State) : State :=
  mmioWrite s.cfg.mboxWriteAddr.toNat s.lat.db s fun s1 => setPhase .mbWaitReadable s1

/-- MB_WAIT_READABLE (R174): the read-poll. -/
def waitReadableStep (s : State) : State :=
  mmioRead s.cfg.mboxStatusAddr.toNat s fun st s1 =>
    if st &&& s1.cfg.mboxEmptyMask ≠ 0 then setPhase .mbWaitReadable s1 else setPhase .mbCheckEcho s1

/-- MB_CHECK_ECHO (R175): all 32 bits are compared; a mismatched word is discarded. -/
def checkEchoStep (s : State) : State :=
  mmioRead s.cfg.mboxReadAddr.toNat s fun e s1 =>
    if e ≠ s1.lat.db then setPhase .mbWaitReadable (setLat { s1.lat with echo := e } s1)
    else setPhase .mbCheckResponse (setLat { s1.lat with echo := e } s1)

/-- MB_CHECK_RESPONSE (R176): equality on the whole of buffer word 1 (90_conflicts.md C1). -/
def checkResponseStep (s : State) : State :=
  bufRead 1 s fun w1 s1 =>
    if w1 = responseFlag then complete .ok w1 s1.lat.db s1 else complete .errResponse w1 s1.lat.db s1

/-- The controller's step (R25): by phase. In IDLE it has nothing to do (log 9); in FAULTED it "takes no step" (R202). -/
def ctrlStep (s : State) : Result :=
  match s.phase with
  | .idle => .next s
  | .fpRead => .next (fpReadStep s)
  | .fpWrite => .next (fpWriteStep s)
  | .bufAccess => .next (bufAccessStep s)
  | .mbWaitWritable => .next (waitWritableStep s)
  | .mbPublish => .next (publishStep s)
  | .mbWaitReadable => .next (waitReadableStep s)
  | .mbCheckEcho => .next (checkEchoStep s)
  | .mbCheckResponse => .next (checkResponseStep s)
  | .faulted => .fault (haltFault s)

end Sys2Proof.Machine
end

