-- ==== Sys2Proof/Machine/Turns.lean ====
section
/-! DEFINITION. Whose move a step is (00_scope.md rules R13, R14): HOST's Issue (30_encoding.md rule R96), the controller's
step, the moves of MBOX_HW and GPIO_HW (43_mailbox_channel.md rule R180) and reset (R230). -/

namespace Sys2Proof.Machine

/-- The accepting step of an Issue (R96): an illegal CMD completes at once with nothing latched (R95); a legal one has its
operand words latched and its issue part performed. -/
def issue (c : Command) (s : State) : Result :=
  match decodeCommand c with
  | .legal i => exec i (latchOpb c.opb (latchOpa c.opa s))
  | .illegal _ => .next (completeIllegal c.cmd s)

/-- The block's turn. In IDLE the oldest Issue HOST waits to make is accepted (R96), and with none there is no move
(log 9); in every other phase Issue has no move and the controller steps. -/
def blockTurn (s : State) : Result :=
  match s.phase, s.port with
  | .idle, c :: cs => issue c { s with port := cs }
  | _, _ => ctrlStep s

/-- The phases in which MBOX_HW may write buffer words (R72). -/
def callInFlight (s : State) : Bool :=
  s.phase == .mbWaitReadable || s.phase == .mbCheckEcho || s.phase == .mbCheckResponse

/-- R180 (a), (b), D19: the value the next read at `a` returns is fixed. -/
def fixAnswer (a : Nat) (v : Word) (s : State) : State := { s with answers := s.answers ++ [(a, v)] }

/-- R180 (c): MBOX_HW absorbs the oldest doorbell. -/
def absorbDoorbell (s : State) : State := { s with inbox := s.inbox.tail }

/-- R180 (d): MBOX_HW writes a buffer word, only where R72 lets it; elsewhere it has no move and nothing happens (log 8). -/
def gpuWriteBuffer (i : Nat) (v : Word) (s : State) : State :=
  if callInFlight s ∧ i < s.cfg.bufWords then bufWrite .mboxHw i v s else s

/-- The move of one turn. -/
def takeTurn (t : Turn) (s : State) : Result :=
  match t with
  | .block => blockTurn s
  | .answer a v => .next (fixAnswer a v s)
  | .absorb => .next (absorbDoorbell s)
  | .gpuWrite i v => .next (gpuWriteBuffer i v s)
  | .reset => .next (applyReset s)

/-- The next turn of the schedule; when the schedule is empty, the block's (log 8). -/
def nextTurn (s : State) : Result :=
  match s.turns with
  | [] => blockTurn s
  | t :: ts => takeTurn t { s with turns := ts }

/-- A command placed so that the very next step accepts it: the block idle, its turn next, the command the oldest one HOST
waits to issue. -/
def placeCommand (c : Command) (s : State) : State :=
  { s with phase := .idle, turns := .block :: s.turns, port := c :: s.port }

end Sys2Proof.Machine
end

