-- ==== Sys2Proof/Machine/Step.lean ====
section
/-! DEFINITION. One step of the machine: one step of one agent (00_scope.md rules R13, R14), in a well-formed
configuration (20_memory.md rule R67). -/

namespace Sys2Proof.Machine

/-- One step. An ill-formed configuration "has no run at all" (R67). -/
def step (s : State) : Host.Outcome State Fault Refusal :=
  if configWellFormed s.cfg then nextTurn s else .refused .illFormedConfiguration

/-- The state in which the very next step issues the command whose bits are `w` (`tableCommand`): commands come from
outside the machine, through the command port (log 18). -/
def State.withFetchWord (s : State) (nbits w : Nat) : State := placeCommand (tableCommand nbits w) s

end Sys2Proof.Machine
end

