-- ==== Sys2Proof/Machine/Assembler.lean ====
section
/-! DEFINITION. The assembler syntax of 30_encoding.md rule R101: one command per line, operands in decimal or `0x`
hexadecimal, the pseudo-instructions, and the rejections. -/

namespace Sys2Proof.Machine

/-- The value of a hexadecimal digit. -/
def hexDigit (c : Char) : Option Nat :=
  if '0'.toNat ≤ c.toNat ∧ c.toNat ≤ '9'.toNat then some (c.toNat - '0'.toNat)
  else if 'a'.toNat ≤ c.toNat ∧ c.toNat ≤ 'f'.toNat then some (c.toNat - 'a'.toNat + 10)
  else if 'A'.toNat ≤ c.toNat ∧ c.toNat ≤ 'F'.toNat then some (c.toNat - 'A'.toNat + 10)
  else none

/-- A run of digits in a base, most significant first, on top of the value read so far. -/
def digitsFrom (base : Nat) : Nat → List Char → Option Nat
  | acc, [] => some acc
  | acc, c :: cs =>
    match hexDigit c with
    | some d => if d < base then digitsFrom base (acc * base + d) cs else none
    | none => none

/-- An operand: `0x` and hexadecimal digits, or decimal digits. -/
def parseOperand : List Char → Option Nat
  | [] => none
  | '0' :: 'x' :: c :: cs => digitsFrom 16 0 (c :: cs)
  | c :: cs => digitsFrom 10 0 (c :: cs)

/-- Blanks taken off both ends (log 20). -/
def trimBlanks (l : List Char) : List Char :=
  ((l.dropWhile (· == ' ')).reverse.dropWhile (· == ' ')).reverse

/-- The pieces of an operand list between its commas. -/
def splitCommas : List Char → List (List Char)
  | [] => [[]]
  | c :: cs =>
    if c = ',' then [] :: splitCommas cs
    else
      match splitCommas cs with
      | [] => [[c]]
      | p :: ps => (c :: p) :: ps

/-- All operands of a line, or none if one does not read as a number. -/
def parseOperands (l : List Char) : Option (List Nat) :=
  if trimBlanks l = [] then some [] else (splitCommas l).mapM fun p => parseOperand (trimBlanks p)

/-- An operand word: 32 bits. -/
def asWord (n : Nat) : Option Word := if n < 2 ^ 32 then some (BitVec.ofNat 32 n) else none

/-- `pin` and `maxpin`: at most 255. -/
def asPin (n : Nat) : Option (BitVec 8) := if n ≤ 255 then some (BitVec.ofNat 8 n) else none

/-- `width`: 1 to 32. -/
def asWidth (n : Nat) : Option (BitVec 6) := if 1 ≤ n ∧ n ≤ 32 then some (BitVec.ofNat 6 n) else none

/-- `channel`: 1 or 8. -/
def asChannel (n : Nat) : Option Instr :=
  if n = 1 then some .mboxCallFb else if n = 8 then some .mboxCallProp else none

/-- The commands and pseudo-instructions without an operand. -/
def asm0 (name : List Char) : Option Instr :=
  if name = "BUF.ADDR".toList then some .bufAddr
  else if name = "MBOX.CALL.FB".toList then some .mboxCallFb
  else if name = "MBOX.CALL.PROP".toList then some .mboxCallProp
  else none

/-- The commands and pseudo-instructions with one operand. -/
def asm1 (name : List Char) (a : Nat) : Option Instr :=
  if name = "GPIO.SET".toList then (asPin a).map .gpioSet
  else if name = "GPIO.CLR".toList then (asPin a).map .gpioClr
  else if name = "GPIO.ALT3".toList then (asPin a).map .gpioAlt3
  else if name = "GPIO.ALT5".toList then (asPin a).map .gpioAlt5
  else if name = "GPIO.PULL.NONE".toList then (asPin a).map fun pin => .gpioPull pin 0
  else if name = "BUF.RD".toList then (asWord a).map .bufRd
  else if name = "MBOX.CALL".toList then asChannel a
  else none

/-- The commands with two operands. -/
def asm2 (name : List Char) (a b : Nat) : Option Instr :=
  if name = "GPIO.PULL".toList then (asPin a).bind fun pin => (asWord b).map fun v => .gpioPull pin v
  else if name = "GPIO.FSEL".toList then (asPin a).bind fun pin => (asWord b).map fun v => .gpioFsel pin v
  else if name = "BUF.WR".toList then (asWord a).bind fun i => (asWord b).map fun v => .bufWr i v
  else none

/-- UNPACK pin, width, maxpin, base. -/
def asmUnpack (pin w maxp base : Nat) : Option Instr :=
  (asPin pin).bind fun p => (asWidth w).bind fun w => (asPin maxp).bind fun m => (asWord base).map fun b =>
    .unpack p w m b

/-- PACK pin, width, maxpin, base, value. -/
def asmPack (pin w maxp base value : Nat) : Option Instr :=
  (asPin pin).bind fun p => (asWidth w).bind fun w => (asPin maxp).bind fun m => (asWord base).bind fun b =>
    (asWord value).map fun v => .pack p w m b v

/-- The command of a mnemonic and its operands (R101). -/
def instrOfLine (name : List Char) (ops : List Nat) : Option Instr :=
  match ops with
  | [] => asm0 name
  | [a] => asm1 name a
  | [a, b] => asm2 name a b
  | [a, b, c, d] => if name = "UNPACK".toList then asmUnpack a b c d else none
  | [a, b, c, d, e] => if name = "PACK".toList then asmPack a b c d e else none
  | _ => none

/-- The assembler on one line: the words of its command, or none where it rejects (R101). -/
def assembleLine (line : String) : Option Command :=
  let l := trimBlanks line.toList
  (parseOperands (l.dropWhile (· != ' '))).bind fun ops =>
    (instrOfLine (l.takeWhile (· != ' ')) ops).map encode

end Sys2Proof.Machine
end

