-- ==== Sys2Proof/Safety.lean ====
section
/-! DEFINITION. The terms claims use: a safe state, controller steps in a row, runs of the machine, the environment
assumptions of 43_mailbox_channel.md rule R181, and the invariant of the machine. -/

namespace Sys2Proof.Machine

/-- No fatal condition has been raised (60_exceptions.md rule R202). -/
def Safe (s : State) : Prop := s.phase ≠ .faulted

/-- `n` controller steps in a row, no other agent moving between them. -/
def ctrlSteps : Nat → State → Result
  | 0, s => .next s
  | n + 1, s =>
    match ctrlStep s with
    | .next s1 => ctrlSteps n s1
    | .fault r => .fault r
    | .refused r => .refused r

/-- A command's Issue step and then `n` controller steps. -/
def runCommand (i : Instr) (n : Nat) (s : State) : Result :=
  match exec i s with
  | .next s1 => ctrlSteps n s1
  | .fault r => .fault r
  | .refused r => .refused r

/-- What every agent but the block's own latches can tell of a state (R24: "The host cannot read any latch"). -/
def State.withoutLatches (s : State) : State := setLat Latches.zero s

/-- An outcome without the latches. -/
def outcomeWithoutLatches : Result → Result
  | .next s => .next s.withoutLatches
  | .fault r => .fault r
  | .refused r => .refused r

/-! ## The environment assumptions of R181 -/

/-- `RamLike(a)`: memory holds the word at `a`, so a read returns the value last written, "or its value at launch". -/
def RamLike (a : Nat) (s : State) : Prop := (s.mem.wordAt a).isSome = true

/-- An infinite run of the machine. -/
def IsRun (r : Nat → State) : Prop := ∀ n, step (r n) = .next (r (n + 1))

/-- Step `n` of the run is the controller's read of `v` from the register at `a`. -/
def ReadsAt (r : Nat → State) (n a : Nat) (v : Word) : Prop :=
  (r (n + 1)).events = ⟨.ctrl, .read, .register, a, v⟩ :: (r n).events

/-- `EnvWritable`: in MB_WAIT_WRITABLE the run eventually reads a status with MBOX_FULL_MASK clear. -/
def EnvWritable (r : Nat → State) : Prop :=
  ∀ n, (r n).phase = .mbWaitWritable → ∃ m v, n ≤ m ∧ (r m).phase = .mbWaitWritable ∧
    ReadsAt r m (r m).cfg.mboxStatusAddr.toNat v ∧ v &&& (r m).cfg.mboxFullMask = 0

/-- `EnvEchoes`: after the publish a read of MBOX_READ_ADDR eventually returns `L.db`, preceded by a status read with
MBOX_EMPTY_MASK clear. -/
def EnvEchoes (r : Nat → State) : Prop :=
  ∀ n, (r n).phase = .mbWaitReadable → ∃ k m v, n ≤ k ∧ k < m ∧
    (r k).phase = .mbWaitReadable ∧ ReadsAt r k (r k).cfg.mboxStatusAddr.toNat v ∧ v &&& (r k).cfg.mboxEmptyMask = 0 ∧
    (r m).phase = .mbCheckEcho ∧ ReadsAt r m (r m).cfg.mboxReadAddr.toNat (r m).lat.db

/-- Step `n` of the run is MBOX_HW's write of `v` to buffer word `i`. -/
def GpuWritesAt (r : Nat → State) (n i : Nat) (v : Word) : Prop :=
  (r (n + 1)).events = ⟨.mboxHw, .write, .buffer, bufWordAddr (r n).cfg i, v⟩ :: (r n).events

/-- `EnvRespondsBeforeEcho`: MBOX_HW writes its response words, word 1 among them (step `j`), while the call is in flight
and before the status read (step `k`) that precedes the matching echo (step `m`). It writes no buffer word after that
status read until the call has ended (log 25). -/
def EnvRespondsBeforeEcho (r : Nat → State) : Prop :=
  ∀ m, (r m).phase = .mbCheckEcho → ReadsAt r m (r m).cfg.mboxReadAddr.toNat (r m).lat.db →
    ∃ j k v w, j < k ∧ k < m ∧ GpuWritesAt r j 1 v ∧
      (r k).phase = .mbWaitReadable ∧ ReadsAt r k (r k).cfg.mboxStatusAddr.toNat w ∧
      (∀ q, k < q → q ≤ m → (r q).phase = .mbCheckEcho) ∧
      (∀ q, j ≤ q → q ≤ m → callInFlight (r q) = true) ∧
      ∀ q i u, k ≤ q → GpuWritesAt r q i u → ∃ p, m < p ∧ p ≤ q ∧ (r p).phase = .idle

/-! ## The invariant -/

/-- The bank and the field width a GPIO command's running access uses: those of the table of R140 and, for a composite
command, those of its stage (R145). -/
def runningBank (s : State) : Word × BitVec 6 :=
  if s.lat.op = opGpioSet then (s.cfg.gpsetBase, setClrWidth)
  else if s.lat.op = opGpioClr then (s.cfg.gpclrBase, setClrWidth)
  else if s.lat.op = opGpioPull then (s.cfg.gppullBase, pullWidth)
  else if s.lat.op = opGpioFsel then (s.cfg.gpfselBase, fselWidth)
  else if s.lat.stage = 0 then (s.cfg.gppullBase, pullWidth)
  else (s.cfg.gpfselBase, fselWidth)

/-- The field-packer latches agree with one another (R120, R121, R124, R127, R140, R145). -/
structure FieldLatchesOk (s : State) : Prop where
  /-- The running command is one of opcodes 1 to 8. -/
  opcode : 1 ≤ s.lat.op.toNat ∧ s.lat.op.toNat ≤ 8
  /-- The width is 1 to 32. -/
  width : widthLegal s.lat.w = true
  /-- The pin passed its check. -/
  pin : s.lat.pin.toNat ≤ s.lat.maxp.toNat
  /-- A GPIO command's maximum is GPIO_MAX_PIN. -/
  gpioMax : 3 ≤ s.lat.op.toNat → s.lat.maxp = gpioMaxPin
  /-- The value passed its check (UNPACK has none). -/
  value : s.lat.op ≠ opUnpack → s.lat.val.toNat ≤ fieldMask s.lat.w.toNat
  /-- `L.addr` is the pin's register. -/
  address : s.lat.addr.toNat = fieldAddr s.lat.pin.toNat s.lat.w.toNat s.lat.base.toNat
  /-- `L.shift` is the pin's bit offset. -/
  offset : s.lat.shift.toNat = fieldShift s.lat.pin.toNat s.lat.w.toNat
  /-- `L.fmask` is `2^w - 1`. -/
  mask : s.lat.fmask.toNat = fieldMask s.lat.w.toNat
  /-- A GPIO command accesses its own bank. -/
  bank : 3 ≤ s.lat.op.toNat → (s.lat.base, s.lat.w) = runningBank s

/-- The word FP_WRITE is about to write is the merge, at a register FP_READ admitted (R125, R126). -/
structure PendingWriteOk (s : State) : Prop where
  notUnpack : s.lat.op ≠ opUnpack
  admitted : mmioFault s.cfg s.lat.addr.toNat = none
  merged : s.lat.new = mergeField s.lat.old s.lat.val s.lat.shift.toNat s.lat.fmask

/-- A mailbox call's latches (R171). -/
structure CallLatchesOk (s : State) : Prop where
  opcode : s.lat.op = opMboxCall
  channel : s.lat.ch = chFramebuffer ∨ s.lat.ch = chProperty
  doorbell : s.lat.db = doorbell s.cfg s.lat.ch

/-- The phases of a mailbox call (R23). -/
def mailboxPhase : Phase → Bool
  | .idle => false
  | .fpRead => false
  | .fpWrite => false
  | .bufAccess => false
  | .mbWaitWritable => true
  | .mbPublish => true
  | .mbWaitReadable => true
  | .mbCheckEcho => true
  | .mbCheckResponse => true
  | .faulted => false

/-- What every state of a run satisfies. -/
structure Inv (s : State) : Prop where
  /-- Memory is in canonical form. -/
  memory : s.mem.wf = true
  /-- A fatal code is recorded exactly in FAULTED (R200, R202). -/
  record : s.resCode.isFatal = true ↔ s.phase = .faulted
  /-- FP_READ and FP_WRITE. -/
  field : s.phase = .fpRead ∨ s.phase = .fpWrite → FieldLatchesOk s
  /-- FP_WRITE. -/
  write : s.phase = .fpWrite → PendingWriteOk s
  /-- BUF_ACCESS: BUF.WR or BUF.RD, its index in bounds (R161, R162). -/
  buffer : s.phase = .bufAccess → (s.lat.op = opBufWr ∨ s.lat.op = opBufRd) ∧ s.lat.idx.toNat < s.cfg.bufWords
  /-- The phases of a mailbox call. -/
  call : mailboxPhase s.phase = true → CallLatchesOk s
  /-- MB_CHECK_RESPONSE is entered only on a matching echo (R175, R177). -/
  echo : s.phase = .mbCheckResponse → s.lat.echo = s.lat.db

end Sys2Proof.Machine
end

