-- ==== Sys2Proof/Certificates/Slice0/Obligations.lean ====
section
/-! DEFINITION. The statements for the provers, from the numbered rules of spec/. A statement about a state holds for every
configuration and every environment that meets its hypotheses; none rests on TCFG, on a reset value of the model's own, or
on a free value. -/

namespace Sys2Proof.Claims

open Sys2Proof.Machine

/-- Memory `m` is the memory of `s` after a word `v` is written at `a`: every byte outside the word reads as before; the
word reads as `v` where memory keeps the write, and all memory is as before where a device absorbs it. -/
def WordWritten (s : State) (m : Memory) (a : Nat) (v : Word) : Prop :=
  (∀ b, b < a ∨ a + 4 ≤ b → m.byteAt b = s.mem.byteAt b) ∧
  (storesAt a s = true → m.wordAt a = some v) ∧ (storesAt a s = false → m = s.mem)

/-- MBOX_HW's inbox after a write of `v` at `a` (R66 (c)). -/
def inboxAfter (s : State) (a : Nat) (v : Word) : List Word :=
  if a = s.cfg.mboxWriteAddr.toNat then s.inbox ++ [v] else s.inbox

/-- The events of a register read of `v` at `a`, and of a register write. -/
def readEvent (a : Nat) (v : Word) : Event := ⟨.ctrl, .read, .register, a, v⟩
def writeEvent (a : Nat) (v : Word) : Event := ⟨.ctrl, .write, .register, a, v⟩

/-- A state after a register read at `a` has consumed its draw, if it took one: `answers` and `draws` only. -/
def drawn (a : Nat) (s : State) : State :=
  { s with answers := (afterRead .ctrl .register a s).answers, draws := (afterRead .ctrl .register a s).draws }

/-- The field-packer latches of pin `pin`, width `w`, base `base` (R120) on top of `l`. -/
def geometryLatches (l : Latches) (pin : BitVec 8) (w : BitVec 6) (maxp : BitVec 8) (base val : Word) : Latches :=
  { l with pin := pin, w := w, maxp := maxp, base := base, val := val,
           addr := BitVec.ofNat 33 (base.toNat + pin.toNat / (32 / w.toNat) * 4),
           shift := BitVec.ofNat 5 (pin.toNat % (32 / w.toNat) * w.toNat),
           fmask := BitVec.ofNat 32 (2 ^ w.toNat - 1) }

/-- The state after the read-modify-write of R125 and R126 at register `a`, field `shift`, with latches `l` loaded at
issue, memory `m`, and the command completed. -/
def afterRmw (s : State) (l : Latches) (a : Nat) (new : Word) (m : Memory) : State :=
  { drawn a s with
      phase := .idle, resCode := .ok, resData := new, resInfo := BitVec.ofNat 32 a,
      lat := { l with old := readValue a s, new := new }, mem := m, inbox := inboxAfter s a new,
      events := writeEvent a new :: readEvent a (readValue a s) :: s.events }

/-- A state of `runCommand i n s` is `t` and the Issue step of it answers a next state. -/
def Completes (i : Instr) (n : Nat) (s t : State) : Prop :=
  (∃ u, exec i s = .next u) ∧ runCommand i n s = .next t

/-- Register address and merged word of pin `pin` in a bank (R120, R122). -/
def regOf (pin w base : Nat) : Nat := base + pin / (32 / w) * 4
def mergedWord (s : State) (pin w base : Nat) (v : Word) : Word :=
  mergeField (readValue (regOf pin w base) s) v (pin % (32 / w) * w) (BitVec.ofNat 32 (2 ^ w - 1))

/-- The outcome of a single GPIO command on an admitted pin: the read-modify-write of its bank, nothing else. -/
def GpioCommandCompletes (i : Instr) (op : BitVec 4) (pin : BitVec 8) (w : BitVec 6) (base v : Word) (s : State) : Prop :=
  ∃ m, Completes i 2 s
      (afterRmw s { geometryLatches s.lat pin w 53 base v with op := op, ch := 0 }
        (regOf pin.toNat w.toNat base.toNat) (mergedWord s pin.toNat w.toNat base.toNat v) m) ∧
    WordWritten s m (regOf pin.toNat w.toNat base.toNat) (mergedWord s pin.toNat w.toNat base.toNat v)

/-- The outcome of a single GPIO command that fails its range check: nothing but the result and the latches. -/
def GpioRangeError (i : Instr) (op : BitVec 4) (pin : BitVec 8) (w : BitVec 6) (base v bad : Word) (s : State) : Prop :=
  exec i s = .next { s with
    phase := .idle, resCode := .errRange, resData := 0, resInfo := bad,
    lat := { s.lat with op := op, ch := 0, pin := pin, w := w, maxp := 53, base := base, val := v } }

/-- Every GPIO bank starts inside the window: what R141 and D30 need beside the conditions R67 lists (log 12). -/
def BanksStartInWindow (c : Config) : Prop :=
  ∀ b ∈ [c.gpfselBase, c.gpsetBase, c.gpclrBase, c.gppullBase],
    c.peripheralBase.toNat ≤ b.toNat ∧ b.toNat ≤ c.peripheralEnd.toNat

/-- The outcome of a composite command on an admitted pin (R145): after stage 0 the pull field is none, the old function
stands and stage 1 is about to read (`u`, R241); then the function-select field is written and the command completes. -/
def CompositeCompletes (i : Instr) (op : BitVec 4) (pin : BitVec 8) (code : Word) (s : State) : Prop :=
  ∃ u m m', Completes i 2 s u ∧
    (let pa := regOf pin.toNat 2 s.cfg.gppullBase.toNat
     let pv := mergedWord s pin.toNat 2 s.cfg.gppullBase.toNat 0
     u = { drawn pa s with
             phase := .fpRead, mem := m, inbox := inboxAfter s pa pv,
             lat := { geometryLatches s.lat pin 3 53 s.cfg.gpfselBase code with
                        op := op, ch := 0, stage := 1, old := readValue pa s, new := pv },
             events := writeEvent pa pv :: readEvent pa (readValue pa s) :: s.events } ∧
     WordWritten s m pa pv) ∧
    (let fa := regOf pin.toNat 3 s.cfg.gpfselBase.toNat
     let fv := mergedWord u pin.toNat 3 s.cfg.gpfselBase.toNat code
     Completes i 4 s (afterRmw u u.lat fa fv m') ∧ WordWritten u m' fa fv)

/-- How a composite command on an admitted pin ends when a sub-operation fails (R145, R208, D13): a refused pull register
ends it in the first FP_READ with no access, reported as itself; a function code that does not fit ends it as
FATAL_COMPOSITE after the pull write, with no access of stage 1; a refused function-select register ends it in the second
FP_READ, reported as itself, the pull write made (R241). -/
def CompositeFails (i : Instr) (pin : BitVec 8) (code : Word) (s : State) : Prop :=
  let pa := regOf pin.toNat 2 s.cfg.gppullBase.toNat
  let pv := mergedWord s pin.toNat 2 s.cfg.gppullBase.toNat 0
  let fa := regOf pin.toNat 3 s.cfg.gpfselBase.toNat
  (∀ c, mmioFault s.cfg pa = some c → ∃ l, Completes i 1 s
    { s with phase := .faulted, resCode := c, resData := 0, resInfo := BitVec.ofNat 32 pa, lat := l }) ∧
  (mmioFault s.cfg pa = none →
    (7 < code.toNat → ∃ l m, WordWritten s m pa pv ∧ Completes i 2 s
      { drawn pa s with
          phase := .faulted, resCode := .fatalComposite, resData := 0, resInfo := 0x102, lat := l, mem := m,
          inbox := inboxAfter s pa pv, events := writeEvent pa pv :: readEvent pa (readValue pa s) :: s.events }) ∧
    (code.toNat ≤ 7 → ∀ c, mmioFault s.cfg fa = some c → ∃ l m, WordWritten s m pa pv ∧ Completes i 3 s
      { drawn pa s with
          phase := .faulted, resCode := c, resData := 0, resInfo := BitVec.ofNat 32 fa, lat := l, mem := m,
          inbox := inboxAfter s pa pv, events := writeEvent pa pv :: readEvent pa (readValue pa s) :: s.events }))

/-- The clauses of R95 on CMD: reserved opcode, a field of R94 not 0, a width of PACK or UNPACK outside 1 to 32, a channel
of MBOX.CALL that is neither 1 nor 8. -/
def IllegalClauses (cmd : Word) : Prop :=
  (opOf cmd = 0x0 ∨ opOf cmd = 0xD ∨ opOf cmd = 0xE ∨ opOf cmd = 0xF) ∨
  (rsvOf cmd ≠ 0 ∨
    ((opOf cmd = 0x1 ∨ opOf cmd = 0x2) ∧ chOf cmd ≠ 0) ∨
    (3 ≤ (opOf cmd).toNat ∧ (opOf cmd).toNat ≤ 8 ∧ (chOf cmd ≠ 0 ∨ widthOf cmd ≠ 0 ∨ maxpOf cmd ≠ 0)) ∨
    (9 ≤ (opOf cmd).toNat ∧ (opOf cmd).toNat ≤ 11 ∧
      (chOf cmd ≠ 0 ∨ pinOf cmd ≠ 0 ∨ widthOf cmd ≠ 0 ∨ maxpOf cmd ≠ 0)) ∨
    (opOf cmd = 0xC ∧ (pinOf cmd ≠ 0 ∨ widthOf cmd ≠ 0 ∨ maxpOf cmd ≠ 0))) ∨
  ((opOf cmd = 0x1 ∨ opOf cmd = 0x2) ∧ (widthOf cmd = 0 ∨ 32 < (widthOf cmd).toNat)) ∨
  (opOf cmd = 0xC ∧ chOf cmd ≠ 1 ∧ chOf cmd ≠ 8)

/-- The conditions of R67, as the rule lists them. -/
def ConfigConditions (c : Config) : Prop :=
  (c.peripheralBase.toNat ≤ c.peripheralEnd.toNat ∧ c.peripheralEnd.toNat < 2 ^ 32 ∧
    c.peripheralBase.toNat % 4 = 0 ∧ c.peripheralEnd.toNat % 4 = 0) ∧
  (∀ a ∈ [c.mboxReadAddr, c.mboxStatusAddr, c.mboxWriteAddr],
    a.toNat % 4 = 0 ∧ c.peripheralBase.toNat ≤ a.toNat ∧ a.toNat ≤ c.peripheralEnd.toNat) ∧
  (∀ b ∈ [(c.gpfselBase, 0x14), (c.gpsetBase, 0x4), (c.gpclrBase, 0x4), (c.gppullBase, 0xC)],
    b.1.toNat % 4 = 0 ∧ c.peripheralBase.toNat ≤ b.1.toNat + b.2 ∧ b.1.toNat + b.2 ≤ c.peripheralEnd.toNat) ∧
  (c.mboxFullMask ≠ 0 ∧ c.mboxEmptyMask ≠ 0) ∧
  (c.bufAddr.toNat % 16 = 0 ∧ 2 ≤ c.bufWords ∧ c.bufAddr.toNat + 4 * c.bufWords ≤ 2 ^ 32) ∧
  c.fselAlt5.toNat ≤ 7

/-- Whether a command uses OPA, and whether it uses OPB (R92, R93); it ignores the word it does not use (R90). -/
def usesOpa : Instr → Bool
  | .pack _ _ _ _ _ => true
  | .unpack _ _ _ _ => true
  | .gpioSet _ => false
  | .gpioClr _ => false
  | .gpioPull _ _ => false
  | .gpioFsel _ _ => false
  | .gpioAlt3 _ => false
  | .gpioAlt5 _ => false
  | .bufWr _ _ => true
  | .bufRd _ => true
  | .bufAddr => false
  | .mboxCallFb => false
  | .mboxCallProp => false
def usesOpb : Instr → Bool
  | .pack _ _ _ _ _ => true
  | .unpack _ _ _ _ => false
  | .gpioSet _ => false
  | .gpioClr _ => false
  | .gpioPull _ _ => true
  | .gpioFsel _ _ => true
  | .gpioAlt3 _ => false
  | .gpioAlt5 _ => false
  | .bufWr _ _ => true
  | .bufRd _ => false
  | .bufAddr => false
  | .mboxCallFb => false
  | .mboxCallProp => false

/-- The mnemonics and pseudo-instructions of R101, each with how many operands it takes. -/
def mnemonics : List (String × Nat) :=
  [("PACK", 5), ("UNPACK", 4), ("GPIO.SET", 1), ("GPIO.CLR", 1), ("GPIO.PULL", 2), ("GPIO.FSEL", 2), ("GPIO.ALT3", 1),
   ("GPIO.ALT5", 1), ("BUF.WR", 2), ("BUF.RD", 1), ("BUF.ADDR", 0), ("MBOX.CALL", 1), ("MBOX.CALL.FB", 0),
   ("MBOX.CALL.PROP", 0), ("GPIO.PULL.NONE", 1)]

/-- `text` is the number `n` in decimal, or in hexadecimal after `0x` (R101). -/
def IsNumeral (n : Nat) (text : List Char) : Prop :=
  text = Nat.toDigits 10 n ∨ text = '0' :: 'x' :: Nat.toDigits 16 n

/-- A line: the mnemonic, a blank, the operands with a comma and a blank between them (log 20). -/
def lineOf (name : String) (operands : List (List Char)) : String :=
  String.ofList (name.toList ++ ' ' :: [',', ' '].intercalate operands)

/-- The controller's phase after one of its steps (R25, R125, R126, R145, R172-R176, R202). -/
def mayFollow (p q : Phase) : Bool :=
  (p, q) ∈ [(.fpRead, .fpWrite), (.fpRead, .idle), (.fpRead, .faulted),
    (.fpWrite, .idle), (.fpWrite, .fpRead),
    (.bufAccess, .idle),
    (.mbWaitWritable, .mbWaitWritable), (.mbWaitWritable, .mbPublish),
    (.mbPublish, .mbWaitReadable),
    (.mbWaitReadable, .mbWaitReadable), (.mbWaitReadable, .mbCheckEcho),
    (.mbCheckEcho, .mbWaitReadable), (.mbCheckEcho, .mbCheckResponse),
    (.mbCheckResponse, .idle)]

/-- The channel of a call, by constructor. -/
def CallOn (i : Instr) (ch : BitVec 4) : Prop := (i = .mboxCallFb ∧ ch = 1) ∨ (i = .mboxCallProp ∧ ch = 8)

/-- The latches of a call at issue (R171). -/
def callLatches (s : State) (ch : BitVec 4) : Latches :=
  { s.lat with op := 0xC, ch := ch, pin := 0, w := 0, maxp := 0,
               db := (s.cfg.bufAddr &&& 0xFFFFFFF0) ||| ch.setWidth 32 }

end Sys2Proof.Claims

open Sys2Proof Sys2Proof.Machine Sys2Proof.Claims

/-! ## Encoding -/

/-- The words of 95_test_vectors.md section 2.3 decode as its table says. -/
def Obligations.DecodesTheSpecsWords : Prop :=
  decode 0x0D430901 0xFE200000 2 = .legal (.pack 9 3 53 0xFE200000 2) ∧
  decode 0x0D430902 0xFE200000 0 = .legal (.unpack 9 3 53 0xFE200000) ∧
  decode 0x00200001 0xFE200000 0xFFFFFFFF = .legal (.pack 0 32 0 0xFE200000 0xFFFFFFFF) ∧
  decode 0x0000FF03 0 0 = .legal (.gpioSet 255) ∧ decode 0x00002004 0 0 = .legal (.gpioClr 32) ∧
  decode 0x00000F05 0 0 = .legal (.gpioPull 15 0) ∧ decode 0x00000A06 0 1 = .legal (.gpioFsel 10 1) ∧
  decode 0x00003507 0 0 = .legal (.gpioAlt3 53) ∧ decode 0x00000E08 0 0 = .legal (.gpioAlt5 14) ∧
  decode 0x00000009 0x23 7 = .legal (.bufWr 35 7) ∧ decode 0x0000000A 3 0 = .legal (.bufRd 3) ∧
  decode 0x0000000B 0 0 = .legal .bufAddr ∧ decode 0x0000001C 0 0 = .legal .mboxCallFb ∧
  decode 0x0000008C 0 0 = .legal .mboxCallProp ∧
  decode 0x00000000 0 0 = .illegal .reservedOpcode ∧ decode 0x4D430901 0 0 = .illegal .nonzeroUnusedField ∧
  decode 0x00210001 0 0 = .illegal .widthOutOfRange ∧ decode 0x0000002C 0 0 = .illegal .channelNotAdmitted

/-- Decoding an encoded well-formed command gives it back, for every command and every operand. -/
def Obligations.DecodeOfEncode : Prop :=
  ∀ i : Instr, i.wellFormed = true → decodeCommand (encode i) = .legal i

/-- Every CMD that decodes is the CMD of the command it decodes to, and the command is well-formed; an operand word the
command uses is the one decoded, and one it ignores is encoded as 0 (R90, R93, R101). -/
def Obligations.EncodeOfDecode : Prop :=
  ∀ (cmd opa opb : Word) (i : Instr), decode cmd opa opb = .legal i →
    (encode i).cmd = cmd ∧ i.wellFormed = true ∧
    (encode i).opa = (if usesOpa i then opa else 0) ∧ (encode i).opb = (if usesOpb i then opb else 0)

/-- R95: a CMD is illegal exactly by its four clauses, legal exactly when it is of one row of R93 and illegal when of none,
and the accepting step of an illegal command changes nothing but the result. -/
def Obligations.IllegalExactlyByTheClauses : Prop :=
  ∀ cmd opa opb : Word,
    ((∃ r, decode cmd opa opb = .illegal r) ↔ IllegalClauses cmd) ∧
    ((∃ i, decode cmd opa opb = .legal i) ↔ (opcodeRows.filter (rowAdmits cmd)).length = 1) ∧
    ((∃ r, decode cmd opa opb = .illegal r) ↔ opcodeRows.filter (rowAdmits cmd) = []) ∧
    ∀ s : State, IllegalClauses cmd → s.phase = .idle →
      issue ⟨cmd, opa, opb⟩ s = .next { s with resCode := .errIllegal, resData := 0, resInfo := cmd }

/-- The assembler (R101). A line that assembles gives the words of one well-formed command, and those words decode to it.
A line written out with its operands in decimal or hexadecimal is read as its mnemonic and those operands. Each mnemonic
and pseudo-instruction, on operands that fit, gives its own command with those operands; MBOX.CALL is rejected on a
channel other than 1 or 8. -/
def Obligations.AssembledLinesDecode : Prop :=
  (∀ (line : String) (c : Command), assembleLine line = some c →
    ∃ i : Instr, i.wellFormed = true ∧ c = encode i ∧ decodeCommand c = .legal i) ∧
  (∀ (name : String) (k : Nat) (ops : List Nat) (texts : List (List Char)), (name, k) ∈ mnemonics →
    List.Forall₂ IsNumeral ops texts → assembleLine (lineOf name texts) = (instrOfLine name.toList ops).map encode) ∧
  (∀ p w m b v : Nat, p ≤ 255 → 1 ≤ w → w ≤ 32 → m ≤ 255 → b < 2 ^ 32 → v < 2 ^ 32 →
    instrOfLine "PACK".toList [p, w, m, b, v] =
      some (.pack (BitVec.ofNat 8 p) (BitVec.ofNat 6 w) (BitVec.ofNat 8 m) (BitVec.ofNat 32 b) (BitVec.ofNat 32 v)) ∧
    instrOfLine "UNPACK".toList [p, w, m, b] =
      some (.unpack (BitVec.ofNat 8 p) (BitVec.ofNat 6 w) (BitVec.ofNat 8 m) (BitVec.ofNat 32 b)) ∧
    instrOfLine "GPIO.SET".toList [p] = some (.gpioSet (BitVec.ofNat 8 p)) ∧
    instrOfLine "GPIO.CLR".toList [p] = some (.gpioClr (BitVec.ofNat 8 p)) ∧
    instrOfLine "GPIO.PULL".toList [p, v] = some (.gpioPull (BitVec.ofNat 8 p) (BitVec.ofNat 32 v)) ∧
    instrOfLine "GPIO.FSEL".toList [p, v] = some (.gpioFsel (BitVec.ofNat 8 p) (BitVec.ofNat 32 v)) ∧
    instrOfLine "GPIO.ALT3".toList [p] = some (.gpioAlt3 (BitVec.ofNat 8 p)) ∧
    instrOfLine "GPIO.ALT5".toList [p] = some (.gpioAlt5 (BitVec.ofNat 8 p)) ∧
    instrOfLine "GPIO.PULL.NONE".toList [p] = instrOfLine "GPIO.PULL".toList [p, 0] ∧
    instrOfLine "BUF.WR".toList [b, v] = some (.bufWr (BitVec.ofNat 32 b) (BitVec.ofNat 32 v)) ∧
    instrOfLine "BUF.RD".toList [b] = some (.bufRd (BitVec.ofNat 32 b))) ∧
  instrOfLine "BUF.ADDR".toList [] = some .bufAddr ∧
  (∀ ch : Nat, instrOfLine "MBOX.CALL".toList [ch] =
    if ch = 1 then some .mboxCallFb else if ch = 8 then some .mboxCallProp else none) ∧
  instrOfLine "MBOX.CALL.FB".toList [] = instrOfLine "MBOX.CALL".toList [1] ∧
  instrOfLine "MBOX.CALL.PROP".toList [] = instrOfLine "MBOX.CALL".toList [8]

/-- The assembler rejects exactly the operands that do not fit (R101; that an operand word is below 2^32, that a wrong
number of operands and that an unknown mnemonic are rejected is log 20's). -/
def Obligations.AssemblerRejectsWhatDoesNotFit : Prop :=
  (∀ (p w m b v : Nat), instrOfLine "PACK".toList [p, w, m, b, v] =
    if p ≤ 255 ∧ 1 ≤ w ∧ w ≤ 32 ∧ m ≤ 255 ∧ b < 2 ^ 32 ∧ v < 2 ^ 32 then
      some (.pack (BitVec.ofNat 8 p) (BitVec.ofNat 6 w) (BitVec.ofNat 8 m) (BitVec.ofNat 32 b) (BitVec.ofNat 32 v))
    else none) ∧
  (∀ p w m b : Nat, instrOfLine "UNPACK".toList [p, w, m, b] = none ↔
    255 < p ∨ w = 0 ∨ 32 < w ∨ 255 < m ∨ 2 ^ 32 ≤ b) ∧
  (∀ name ∈ ["GPIO.SET", "GPIO.CLR", "GPIO.ALT3", "GPIO.ALT5", "GPIO.PULL.NONE"], ∀ p : Nat,
    instrOfLine name.toList [p] = none ↔ 255 < p) ∧
  (∀ name ∈ ["GPIO.PULL", "GPIO.FSEL"], ∀ p v : Nat,
    instrOfLine name.toList [p, v] = none ↔ 255 < p ∨ 2 ^ 32 ≤ v) ∧
  (∀ i v : Nat, (instrOfLine "BUF.WR".toList [i, v] = none ↔ 2 ^ 32 ≤ i ∨ 2 ^ 32 ≤ v) ∧
    (instrOfLine "BUF.RD".toList [i] = none ↔ 2 ^ 32 ≤ i)) ∧
  (∀ ch : Nat, instrOfLine "MBOX.CALL".toList [ch] = none ↔ ch ≠ 1 ∧ ch ≠ 8) ∧
  ∀ (name : List Char) (ops : List Nat), (∀ e ∈ mnemonics, name = e.1.toList → ops.length ≠ e.2) →
    instrOfLine name ops = none

/-! ## Issue and steps -/

/-- In IDLE, when it is the block's turn, a step accepts the oldest command HOST waits to issue: its operand words are
latched and exec of the decoded instruction runs. In a busy phase the step is the controller's. In a turn of MBOX_HW or
GPIO_HW the step is their move (R180 (a)-(c), D19): the answer they fix is queued, and the next read at its address returns
it and consumes it; the oldest doorbell is absorbed; nothing else changes (logs 3, 8 and 17). -/
def Obligations.StepRunsTheDecodedCommand : Prop :=
  (∀ (s : State) (ts : List Turn), configWellFormed s.cfg = true → (s.turns = .block :: ts ∨ (s.turns = [] ∧ ts = [])) →
    (∀ (c : Command) (cs : List Command) (i : Instr), s.phase = .idle → s.port = c :: cs → decodeCommand c = .legal i →
      step s = exec i { s with turns := ts, port := cs, lat := { s.lat with base := c.opa, idx := c.opa, val := c.opb } }) ∧
    (s.phase ≠ .idle → step s = ctrlStep { s with turns := ts })) ∧
  (∀ (s : State) (ts : List Turn), configWellFormed s.cfg = true →
    (∀ a v, s.turns = .answer a v :: ts → step s = .next { s with turns := ts, answers := s.answers ++ [(a, v)] }) ∧
    (s.turns = .absorb :: ts → step s = .next { s with turns := ts, inbox := s.inbox.drop 1 })) ∧
  ∀ (who : Agent) (sp : Space) (a : Nat) (v : Word) (l r : List (Nat × Word)) (s : State),
    s.mem.wordAt a = none → s.answers = l ++ (a, v) :: r → (∀ x ∈ l, x.1 ≠ a) →
    readValue a s = v ∧
    afterRead who sp a s = { s with answers := l ++ r, events := ⟨who, .read, sp, a, v⟩ :: s.events }

/-- A word placed by `withFetchWord` is what the very next step runs. -/
def Obligations.PlacedWordRunsNext : Prop :=
  ∀ (s : State) (nbits w : Nat) (i : Instr), configWellFormed s.cfg = true → decodeTableWord nbits w = some i →
    step (s.withFetchWord nbits w) =
      exec i { s with phase := .idle, lat := { s.lat with base := (tableCommand nbits w).opa,
                                                          idx := (tableCommand nbits w).opa,
                                                          val := (tableCommand nbits w).opb } }

/-- The Issue step of every command answers a next state and changes only the latches, the phase and the result (R96:
"The issue part of every rule makes no memory access"). -/
def Obligations.IssueMakesNoAccess : Prop :=
  ∀ (i : Instr) (s : State), ∃ (p : Phase) (c : ResCode) (d x : Word) (l : Latches),
    exec i s = .next { s with phase := p, resCode := c, resData := d, resInfo := x, lat := l }

/-- The operands HOST issued are in the latches after the accepting step (R96), whatever the latches held. -/
def Obligations.IssueLatchesTheOperands : Prop :=
  ∀ (c : Command) (s : State) (i : Instr), decodeCommand c = .legal i → ∃ t, issue c s = .next t ∧
    t.lat.op = c.cmd.extractLsb' 0 4 ∧ t.lat.ch = c.cmd.extractLsb' 4 4 ∧ t.lat.pin = c.cmd.extractLsb' 8 8 ∧
    t.lat.idx = c.opa ∧
    (t.lat.op = 0x1 ∨ t.lat.op = 0x2 → t.lat.w = c.cmd.extractLsb' 16 6 ∧ t.lat.maxp = c.cmd.extractLsb' 22 8 ∧
      t.lat.base = c.opa ∧ t.lat.val = c.opb) ∧
    (t.lat.op = 0x9 → t.lat.val = c.opb)

/-- While the block is not in IDLE no Issue is accepted: HOST's commands wait (R96). -/
def Obligations.IssueWaitsUntilIdle : Prop :=
  ∀ s t : State, s.phase ≠ .idle → step s = .next t → t.port = s.port

/-- Each step makes at most one access (R13), and in the block's turn it is the controller's. -/
def Obligations.OneAccessPerStep : Prop :=
  ∀ s t : State, step s = .next t →
    t.events = s.events ∨ ∃ e, t.events = e :: s.events ∧
      (e.performer = .ctrl ∧ (s.turns = [] ∨ ∃ ts, s.turns = .block :: ts) ∨
       e.performer = .mboxHw ∧ e.kind = .write ∧ ∃ a v ts, s.turns = .gpuWrite a v :: ts)

/-- No step changes the configuration (R8). -/
def Obligations.ConfigurationNeverChanges : Prop := ∀ s t : State, step s = .next t → t.cfg = s.cfg

/-- R67: the conditions of a well-formed configuration, and a model refuses an ill-formed one. That every bank also starts
in the window is read from R141 and D30 (log 12). -/
def Obligations.IllFormedConfigurationHasNoRun : Prop :=
  (∀ c : Config, configWellFormed c = true ↔ ConfigConditions c ∧ BanksStartInWindow c) ∧
  ∀ s : State, step s = .refused .illFormedConfiguration ↔ ¬ (ConfigConditions s.cfg ∧ BanksStartInWindow s.cfg)

/-- The controller's steps follow the edges of the state machine, from every state of a run. The edge FP_WRITE to FP_READ is
taken exactly at the end of stage 0 of a composite command (R126, R145; R25's sentence on backward edges leaves it out,
log 22), and only PACK and UNPACK can go from FP_READ to FAULTED (R141, log 12). -/
def Obligations.PhasesFollowTheStateMachine : Prop :=
  ∀ s t : State, Inv s → configWellFormed s.cfg = true → s.phase ≠ .idle → ctrlStep s = .next t →
    mayFollow s.phase t.phase = true ∧
    (s.phase = .fpWrite → (t.phase = .fpRead ↔ (s.lat.op = 7 ∨ s.lat.op = 8) ∧ s.lat.stage = 0)) ∧
    (t.phase = .faulted → s.lat.op = 1 ∨ s.lat.op = 2)

/-! ## The checked access and the datapath -/

/-- R62 and R63: MmioRead and MmioWrite check the alignment, then the window on the exact address, and make no access when
a check fails; every register access of the controller passes both checks. -/
def Obligations.MmioChecksAlignmentThenWindow : Prop :=
  (∀ (s t : State) (e : Event), step s = .next t → t.events = e :: s.events → e.performer = .ctrl → e.space = .register →
    e.addr % 4 = 0 ∧ s.cfg.peripheralBase.toNat ≤ e.addr ∧ e.addr ≤ s.cfg.peripheralEnd.toNat) ∧
  ∀ (s : State) (a : Nat) (v : Word) (k : Word → State → State) (k' : State → State),
    (inWindow s.cfg a = true ↔ s.cfg.peripheralBase.toNat ≤ a ∧ a ≤ s.cfg.peripheralEnd.toNat) ∧
    (2 ^ 32 ≤ a → inWindow s.cfg a = false) ∧
    (a % 4 ≠ 0 →
      mmioRead a s k = { s with resCode := .fatalAlign, resData := 0, resInfo := BitVec.ofNat 32 a, phase := .faulted } ∧
      mmioWrite a v s k' =
        { s with resCode := .fatalAlign, resData := 0, resInfo := BitVec.ofNat 32 a, phase := .faulted }) ∧
    (a % 4 = 0 → inWindow s.cfg a = false →
      mmioRead a s k = { s with resCode := .fatalWindow, resData := 0, resInfo := BitVec.ofNat 32 a, phase := .faulted } ∧
      mmioWrite a v s k' =
        { s with resCode := .fatalWindow, resData := 0, resInfo := BitVec.ofNat 32 a, phase := .faulted }) ∧
    (a % 4 = 0 → inWindow s.cfg a = true →
      mmioRead a s k = k (readValue a s) (afterRead .ctrl .register a s) ∧
      mmioWrite a v s k' = k' (memWrite .ctrl .register a v s))

/-- R120 and its consequences: the geometry, `shift + w <= 32`, the shifted mask fits in 32 bits, and the top
`32 - fpr*w` bits belong to no pin. -/
def Obligations.GeometryStaysInsideTheWord : Prop :=
  ∀ p w base : Nat, 1 ≤ w → w ≤ 32 →
    1 ≤ fieldsPerReg w ∧ fieldsPerReg w ≤ 32 ∧ fieldsPerReg w = 32 / w ∧
    fieldAddr p w base = base + p / (32 / w) * 4 ∧ fieldShift p w = p % (32 / w) * w ∧ fieldMask w = 2 ^ w - 1 ∧
    fieldShift p w ≤ 31 ∧ fieldShift p w + w ≤ 32 ∧ fieldMask w * 2 ^ fieldShift p w < 2 ^ 32 ∧
    fieldShift p w + w ≤ fieldsPerReg w * w

/-- Two pins of one bank never share a bit: their registers differ or their fields are apart. -/
def Obligations.FieldsOfTwoPinsAreApart : Prop :=
  ∀ p q w base : Nat, 1 ≤ w → w ≤ 32 → p ≠ q →
    fieldAddr p w base ≠ fieldAddr q w base ∨
    fieldShift p w + w ≤ fieldShift q w ∨ fieldShift q w + w ≤ fieldShift p w

/-- R121: both range errors are reported together, 0 means valid, and a violation ends in one ERR_RANGE at Issue before any
register is touched. -/
def Obligations.RangeCheckReportsBothErrors : Prop :=
  ∀ (p maxp : BitVec 8) (v : Word) (w : BitVec 6),
    (rangeCheck p v w maxp).toNat =
      (if maxp.toNat < p.toNat then 1 else 0) + (if 2 ^ w.toNat - 1 < v.toNat then 2 else 0) ∧
    (rangeCheck p v w maxp = 0 ↔ p.toNat ≤ maxp.toNat ∧ v.toNat ≤ 2 ^ w.toNat - 1) ∧
    ∀ (base : Word) (s : State), 1 ≤ w.toNat → w.toNat ≤ 32 → rangeCheck p v w maxp ≠ 0 →
      ∃ t, exec (.pack p w maxp base v) s = .next t ∧ t.phase = .idle ∧ t.resCode = .errRange ∧
        t.resInfo = rangeCheck p v w maxp ∧ t.events = s.events ∧ t.mem = s.mem

/-- R122: merge clears exactly the field, ORs in the value, and leaves every other bit; neither shift leaves the word. -/
def Obligations.MergeChangesExactlyTheField : Prop :=
  ∀ (old v : Word) (shift w : Nat), 1 ≤ w → shift + w ≤ 32 → v.toNat ≤ 2 ^ w - 1 →
    mergeField old v shift (BitVec.ofNat 32 (2 ^ w - 1)) =
      ((old &&& ~~~(BitVec.ofNat 32 (2 ^ w - 1) <<< shift)) ||| (v <<< shift)) ∧
    (2 ^ w - 1) * 2 ^ shift < 2 ^ 32 ∧ v.toNat * 2 ^ shift < 2 ^ 32 ∧
    ∀ k, k < 32 → (mergeField old v shift (BitVec.ofNat 32 (2 ^ w - 1))).getLsbD k =
      if shift ≤ k ∧ k < shift + w then v.getLsbD (k - shift) else old.getLsbD k

/-- R123: extract is the logical shift and mask, and extracting what was merged gives it back. -/
def Obligations.ExtractInvertsMerge : Prop :=
  (∀ (word fmask : Word) (shift : Nat), extractField word shift fmask = (word >>> shift) &&& fmask) ∧
  ∀ (old v : Word) (shift w : Nat), 1 ≤ w → shift + w ≤ 32 → v.toNat ≤ 2 ^ w - 1 →
    extractField (mergeField old v shift (BitVec.ofNat 32 (2 ^ w - 1))) shift (BitVec.ofNat 32 (2 ^ w - 1)) = v

/-! ## PACK and UNPACK -/

/-- PACK on valid operands completes in two controller steps after Issue: one read and one write of the pin's register, the
merged word as result, nothing else (R124, R125, R126). -/
def Obligations.PackCompletes : Prop :=
  ∀ (pin : BitVec 8) (w : BitVec 6) (maxp : BitVec 8) (base v : Word) (s : State),
    1 ≤ w.toNat → w.toNat ≤ 32 → pin.toNat ≤ maxp.toNat → v.toNat ≤ 2 ^ w.toNat - 1 → base.toNat % 4 = 0 →
    inWindow s.cfg (regOf pin.toNat w.toNat base.toNat) = true →
    ∃ m, Completes (.pack pin w maxp base v) 2 s
        (afterRmw s { geometryLatches s.lat pin w maxp base v with op := 1, ch := 0, idx := base }
          (regOf pin.toNat w.toNat base.toNat) (mergedWord s pin.toNat w.toNat base.toNat v) m) ∧
      WordWritten s m (regOf pin.toNat w.toNat base.toNat) (mergedWord s pin.toNat w.toNat base.toNat v)

/-- UNPACK on a valid pin completes in one controller step after Issue: one read, the field as result, no write (R127). -/
def Obligations.UnpackCompletes : Prop :=
  ∀ (pin : BitVec 8) (w : BitVec 6) (maxp : BitVec 8) (base : Word) (s : State),
    1 ≤ w.toNat → w.toNat ≤ 32 → pin.toNat ≤ maxp.toNat → base.toNat % 4 = 0 →
    inWindow s.cfg (regOf pin.toNat w.toNat base.toNat) = true →
    Completes (.unpack pin w maxp base) 1 s
      (let a := regOf pin.toNat w.toNat base.toNat
       { drawn a s with
           phase := .idle, resCode := .ok,
           resData := (readValue a s >>> (pin.toNat % (32 / w.toNat) * w.toNat)) &&& BitVec.ofNat 32 (2 ^ w.toNat - 1),
           resInfo := BitVec.ofNat 32 a,
           lat := { geometryLatches s.lat pin w maxp base s.lat.val with
                      op := 2, ch := 0, idx := base, old := readValue a s },
           events := readEvent a (readValue a s) :: s.events })

/-- A range error of PACK or UNPACK is reported at Issue and touches no register (R121, R124, R127). -/
def Obligations.PackerRangeErrorTouchesNothing : Prop :=
  ∀ (pin : BitVec 8) (w : BitVec 6) (maxp : BitVec 8) (base v : Word) (s : State), 1 ≤ w.toNat → w.toNat ≤ 32 →
    (rangeCheck pin v w maxp ≠ 0 →
      exec (.pack pin w maxp base v) s = .next { s with
        phase := .idle, resCode := .errRange, resData := 0, resInfo := rangeCheck pin v w maxp,
        lat := { s.lat with op := 1, ch := 0, pin := pin, w := w, maxp := maxp, base := base, idx := base, val := v } }) ∧
    (maxp.toNat < pin.toNat →
      exec (.unpack pin w maxp base) s = .next { s with
        phase := .idle, resCode := .errRange, resData := 0, resInfo := 1,
        lat := { s.lat with op := 2, ch := 0, pin := pin, w := w, maxp := maxp, base := base, idx := base } })

/-- On a misaligned base or an address outside the window, PACK and UNPACK end in FAULTED in FP_READ, with no access
(R124, R127, R62). -/
def Obligations.PackerFatalOnMisalignedOrOutside : Prop :=
  ∀ (pin : BitVec 8) (w : BitVec 6) (maxp : BitVec 8) (base v : Word) (s : State) (i : Instr),
    1 ≤ w.toNat → w.toNat ≤ 32 → pin.toNat ≤ maxp.toNat →
    (i = .pack pin w maxp base v ∧ v.toNat ≤ 2 ^ w.toNat - 1 ∨ i = .unpack pin w maxp base) →
    (base.toNat % 4 ≠ 0 ∨ inWindow s.cfg (regOf pin.toNat w.toNat base.toNat) = false) →
    ∃ l, runCommand i 1 s = .next { s with
      phase := .faulted, resCode := if base.toNat % 4 ≠ 0 then .fatalAlign else .fatalWindow, resData := 0,
      resInfo := BitVec.ofNat 32 (regOf pin.toNat w.toNat base.toNat), lat := l }

/-- R128: on a register that behaves as plain storage, PACK then UNPACK returns the value, every bit of the register outside
the field and every other byte of memory is unchanged; an invalid PACK makes no access. -/
def Obligations.PackUnpackRoundTrip : Prop :=
  ∀ (pin : BitVec 8) (w : BitVec 6) (maxp : BitVec 8) (base v : Word) (s : State), 1 ≤ w.toNat → w.toNat ≤ 32 →
    (pin.toNat ≤ maxp.toNat → v.toNat ≤ 2 ^ w.toNat - 1 → base.toNat % 4 = 0 →
      inWindow s.cfg (regOf pin.toNat w.toNat base.toNat) = true →
      RamLike (regOf pin.toNat w.toNat base.toNat) s →
      ∃ t u old new, runCommand (.pack pin w maxp base v) 2 s = .next t ∧
        runCommand (.unpack pin w maxp base) 1 t = .next u ∧ u.resCode = .ok ∧ u.resData = v ∧
        s.mem.wordAt (regOf pin.toNat w.toNat base.toNat) = some old ∧
        u.mem.wordAt (regOf pin.toNat w.toNat base.toNat) = some new ∧
        (∀ k, k < pin.toNat % (32 / w.toNat) * w.toNat ∨ pin.toNat % (32 / w.toNat) * w.toNat + w.toNat ≤ k →
          new.getLsbD k = old.getLsbD k) ∧
        ∀ b, b < regOf pin.toNat w.toNat base.toNat ∨ regOf pin.toNat w.toNat base.toNat + 4 ≤ b →
          u.mem.byteAt b = s.mem.byteAt b) ∧
    (maxp.toNat < pin.toNat ∨ 2 ^ w.toNat - 1 < v.toNat → ∀ n,
      ∃ t, runCommand (.pack pin w maxp base v) n s = .next t ∧ t.resCode = .errRange ∧ t.phase = .idle ∧
        t.events = s.events ∧ t.mem = s.mem)

/-! ## GPIO -/

/-- GPIO.SET and GPIO.CLR on a pin 0 to 53 pack 1 into the pin's bit of their bank (R141, R142). -/
def Obligations.GpioSetAndClearComplete : Prop :=
  ∀ (pin : BitVec 8) (s : State), configWellFormed s.cfg = true → pin.toNat ≤ 53 →
    GpioCommandCompletes (.gpioSet pin) 3 pin 1 s.cfg.gpsetBase 1 s ∧
    GpioCommandCompletes (.gpioClr pin) 4 pin 1 s.cfg.gpclrBase 1 s

/-- GPIO.PULL and GPIO.FSEL on a pin 0 to 53 and a value that fits pack it into the pin's field (R143, R144). -/
def Obligations.GpioPullAndFselComplete : Prop :=
  ∀ (pin : BitVec 8) (v : Word) (s : State), configWellFormed s.cfg = true → pin.toNat ≤ 53 →
    (v.toNat ≤ 3 → GpioCommandCompletes (.gpioPull pin v) 5 pin 2 s.cfg.gppullBase v s) ∧
    (v.toNat ≤ 7 → GpioCommandCompletes (.gpioFsel pin v) 6 pin 3 s.cfg.gpfselBase v s)

/-- The single GPIO commands report a pin above 53 in bit 0 and a value too wide in bit 1, and make no access
(R141-R144, R148). They have no other error: whichever agents move between their steps, no step of theirs enters FAULTED,
so FATAL_ALIGN and FATAL_WINDOW cannot occur (R141, log 12). -/
def Obligations.GpioRangeErrorsPropagate : Prop :=
  (∀ s t : State, Inv s → step s = .next t → s.phase ≠ .faulted → t.phase = .faulted →
    ¬ (3 ≤ t.lat.op.toNat ∧ t.lat.op.toNat ≤ 6)) ∧
  ∀ (pin : BitVec 8) (v : Word) (s : State),
    (53 < pin.toNat →
      GpioRangeError (.gpioSet pin) 3 pin 1 s.cfg.gpsetBase 1 1 s ∧
      GpioRangeError (.gpioClr pin) 4 pin 1 s.cfg.gpclrBase 1 1 s) ∧
    (53 < pin.toNat ∨ 3 < v.toNat →
      GpioRangeError (.gpioPull pin v) 5 pin 2 s.cfg.gppullBase v
        (BitVec.ofNat 32 ((if 53 < pin.toNat then 1 else 0) + (if 3 < v.toNat then 2 else 0))) s) ∧
    (53 < pin.toNat ∨ 7 < v.toNat →
      GpioRangeError (.gpioFsel pin v) 6 pin 3 s.cfg.gpfselBase v
        (BitVec.ofNat 32 ((if 53 < pin.toNat then 1 else 0) + (if 7 < v.toNat then 2 else 0))) s)

/-- R140: each single GPIO command is the PACK of the rule's table, for every result and every access, after any number of
controller steps; its latches are the table's and `L.op` keeps the GPIO opcode. -/
def Obligations.SingleGpioCommandsArePacks : Prop :=
  ∀ (pin : BitVec 8) (v : Word) (s : State) (n : Nat),
    outcomeWithoutLatches (runCommand (.gpioSet pin) n s) =
      outcomeWithoutLatches (runCommand (.pack pin 1 53 s.cfg.gpsetBase 1) n s) ∧
    outcomeWithoutLatches (runCommand (.gpioClr pin) n s) =
      outcomeWithoutLatches (runCommand (.pack pin 1 53 s.cfg.gpclrBase 1) n s) ∧
    outcomeWithoutLatches (runCommand (.gpioPull pin v) n s) =
      outcomeWithoutLatches (runCommand (.pack pin 2 53 s.cfg.gppullBase v) n s) ∧
    outcomeWithoutLatches (runCommand (.gpioFsel pin v) n s) =
      outcomeWithoutLatches (runCommand (.pack pin 3 53 s.cfg.gpfselBase v) n s) ∧
    ∀ i op base w val,
      (i, op, base, w, val) ∈
        [(Instr.gpioSet pin, (3 : BitVec 4), s.cfg.gpsetBase, (1 : BitVec 6), (1 : Word)),
         (.gpioClr pin, 4, s.cfg.gpclrBase, 1, 1), (.gpioPull pin v, 5, s.cfg.gppullBase, 2, v),
         (.gpioFsel pin v, 6, s.cfg.gpfselBase, 3, v)] →
      ∃ t, exec i s = .next t ∧ t.lat.op = op ∧ t.lat.base = base ∧ t.lat.w = w ∧ t.lat.maxp = 53 ∧ t.lat.val = val

/-- GPIO.ALT3 and GPIO.ALT5 on a pin 0 to 53 complete in four controller steps: the pull field to none, then the
function-select field to 7 or FSEL_ALT5, with the intermediate state of R241 between (R145-R147). Where a sub-operation
fails they end as R145 says; only an ill-formed configuration lets one fail, and step refuses those (logs 11 and 12). -/
def Obligations.CompositeCommandsComplete : Prop :=
  ∀ (pin : BitVec 8) (s : State), pin.toNat ≤ 53 →
    (configWellFormed s.cfg = true →
      CompositeCompletes (.gpioAlt3 pin) 7 pin 7 s ∧ CompositeCompletes (.gpioAlt5 pin) 8 pin s.cfg.fselAlt5 s) ∧
    CompositeFails (.gpioAlt3 pin) pin 7 s ∧ CompositeFails (.gpioAlt5 pin) pin s.cfg.fselAlt5 s

/-- A composite command on a pin above 53 is fatal at Issue, with no access and RES_INFO = 1 (R145-R147). -/
def Obligations.CompositeOnABadPinIsFatal : Prop :=
  ∀ (pin : BitVec 8) (s : State), 53 < pin.toNat →
    ∀ i op, (i, op) ∈ [(Instr.gpioAlt3 pin, (7 : BitVec 4)), (.gpioAlt5 pin, 8)] →
      exec i s = .next { s with
        phase := .faulted, resCode := .fatalComposite, resData := 0, resInfo := 1,
        lat := { s.lat with op := op, ch := 0, pin := pin, w := 0, maxp := 0 } }

/-- In a well-formed configuration stage 1 of a composite command never fails its range check (R145): FATAL_COMPOSITE is
only ever recorded with RES_INFO = 1, at Issue. That is a composite command's only fatal condition, whichever agents move
between its steps (R141, log 12). -/
def Obligations.NoFatalCompositeInStageOne : Prop :=
  ∀ s t : State, Inv s → step s = .next t →
    (t.resCode = .fatalComposite → s.resCode ≠ .fatalComposite → s.phase = .idle ∧ t.resInfo = 1) ∧
    (s.phase ≠ .faulted → t.phase = .faulted → t.lat.op = 7 ∨ t.lat.op = 8 →
      s.phase = .idle ∧ t.resCode = .fatalComposite ∧ t.resInfo = 1)

/-! ## The mailbox buffer -/

/-- BUF.WR on an index in bounds completes in one controller step after Issue: the word stored at BUF_ADDR + 4*i, every
other byte unchanged (R161, R160). -/
def Obligations.BufWrCompletes : Prop :=
  ∀ (i v : Word) (s : State), i.toNat < s.cfg.bufWords →
    ∃ m, Completes (.bufWr i v) 1 s { s with
        phase := .idle, resCode := .ok, resData := v, resInfo := i, mem := m,
        inbox := inboxAfter s (s.cfg.bufAddr.toNat + 4 * i.toNat) v,
        lat := { s.lat with op := 9, ch := 0, pin := 0, w := 0, maxp := 0, base := i, idx := i, val := v },
        events := ⟨.ctrl, .write, .buffer, s.cfg.bufAddr.toNat + 4 * i.toNat, v⟩ :: s.events } ∧
      m.wordAt (s.cfg.bufAddr.toNat + 4 * i.toNat) = some v ∧
      ∀ b, b < s.cfg.bufAddr.toNat + 4 * i.toNat ∨ s.cfg.bufAddr.toNat + 4 * i.toNat + 4 ≤ b →
        m.byteAt b = s.mem.byteAt b

/-- BUF.RD on an index in bounds completes in one controller step after Issue with the word at BUF_ADDR + 4*i, memory
unchanged (R162, R160). -/
def Obligations.BufRdCompletes : Prop :=
  ∀ (i : Word) (s : State), i.toNat < s.cfg.bufWords →
    Completes (.bufRd i) 1 s
      (let a := s.cfg.bufAddr.toNat + 4 * i.toNat
       { drawn a s with
           phase := .idle, resCode := .ok, resData := readValue a s, resInfo := i,
           lat := { s.lat with op := 0xA, ch := 0, pin := 0, w := 0, maxp := 0, base := i, idx := i },
           events := ⟨.ctrl, .read, .buffer, a, readValue a s⟩ :: s.events })

/-- A BUF.RD after a BUF.WR returns the word written, or what the buffer held for any other index (R71, R66 (g)). -/
def Obligations.BufferReadsTheLastWrite : Prop :=
  ∀ (i j v : Word) (s : State), i.toNat < s.cfg.bufWords → j.toNat < s.cfg.bufWords →
    ∃ t u, runCommand (.bufWr i v) 1 s = .next t ∧ runCommand (.bufRd j) 1 t = .next u ∧ u.resCode = .ok ∧
      u.resData = if j = i then v else readValue (s.cfg.bufAddr.toNat + 4 * j.toNat) s

/-- An index at or above BUF_WORDS is fatal at Issue, with no access (R161, R162). -/
def Obligations.BufferIndexOutOfRangeIsFatal : Prop :=
  ∀ (i v : Word) (s : State), s.cfg.bufWords ≤ i.toNat →
    exec (.bufWr i v) s = .next { s with
      phase := .faulted, resCode := .fatalBufIndex, resData := 0, resInfo := i,
      lat := { s.lat with op := 9, ch := 0, pin := 0, w := 0, maxp := 0, base := i, idx := i, val := v } } ∧
    exec (.bufRd i) s = .next { s with
      phase := .faulted, resCode := .fatalBufIndex, resData := 0, resInfo := i,
      lat := { s.lat with op := 0xA, ch := 0, pin := 0, w := 0, maxp := 0, base := i, idx := i } }

/-- R163: BUF.ADDR completes in its Issue step with RES_DATA = BUF_ADDR, whose low 4 bits are 0, and RES_INFO = 0, with no
access; its CMD is 0x0000000B, all 32 bits. -/
def Obligations.BufAddrReportsTheAddress : Prop :=
  (∀ s : State, exec .bufAddr s = .next { s with
    phase := .idle, resCode := .ok, resData := s.cfg.bufAddr, resInfo := 0,
    lat := { s.lat with op := 0xB, ch := 0, pin := 0, w := 0, maxp := 0 } }) ∧
  (∀ s : State, configWellFormed s.cfg = true → s.cfg.bufAddr &&& 0xF = 0) ∧
  ∀ cmd opa opb : Word, decode cmd opa opb = .legal .bufAddr ↔ cmd = 0x0000000B

/-- Only BUF.WR and MBOX_HW's writes during a call change the buffer (R164), where it does not lie in the window (log 13). -/
def Obligations.OnlyBufWrAndTheGpuChangeTheBuffer : Prop :=
  ∀ (s t : State) (b : Nat), (∀ a, inBuffer s.cfg a = true → inWindow s.cfg a = false) → step s = .next t →
    inBuffer s.cfg b = true → t.mem.byteAt b ≠ s.mem.byteAt b →
    (s.phase = .bufAccess ∧ s.lat.op = 9) ∨ (callInFlight s = true ∧ ∃ i v ts, s.turns = .gpuWrite i v :: ts)

/-- R72: MBOX_HW writes buffer words only while a call is in flight: its move then stores the word and nothing else; in any
other phase it changes no byte and makes no access; no step records a write of MBOX_HW outside a call. -/
def Obligations.GpuWritesOnlyDuringACall : Prop :=
  (∀ (s : State) (i : Nat) (v : Word) (ts : List Turn), configWellFormed s.cfg = true → s.turns = .gpuWrite i v :: ts →
    ((s.phase = .mbWaitReadable ∨ s.phase = .mbCheckEcho ∨ s.phase = .mbCheckResponse) → i < s.cfg.bufWords →
      ∃ m, step s = .next { s with
          turns := ts, mem := m, inbox := inboxAfter s (s.cfg.bufAddr.toNat + 4 * i) v,
          events := ⟨.mboxHw, .write, .buffer, s.cfg.bufAddr.toNat + 4 * i, v⟩ :: s.events } ∧
        m.wordAt (s.cfg.bufAddr.toNat + 4 * i) = some v ∧
        ∀ b, b < s.cfg.bufAddr.toNat + 4 * i ∨ s.cfg.bufAddr.toNat + 4 * i + 4 ≤ b →
          m.byteAt b = s.mem.byteAt b) ∧
    (¬ (s.phase = .mbWaitReadable ∨ s.phase = .mbCheckEcho ∨ s.phase = .mbCheckResponse) →
      ∀ t, step s = .next t → t.mem = s.mem ∧ t.inbox = s.inbox ∧ t.events = s.events)) ∧
  ∀ (s t : State) (e : Event), step s = .next t → t.events = e :: s.events → e.performer = .mboxHw →
    s.phase = .mbWaitReadable ∨ s.phase = .mbCheckEcho ∨ s.phase = .mbCheckResponse

/-! ## The mailbox call -/

/-- R97: the doorbell, the word published to MBOX_WRITE_ADDR, is BUF_ADDR[31:4] above the channel id, and is BUF_ADDR + ch
under 16-byte alignment. -/
def Obligations.DoorbellIsAddressAndChannel : Prop :=
  (∀ s t : State, Inv s → configWellFormed s.cfg = true → s.phase = .mbPublish → ctrlStep s = .next t →
    t.events = writeEvent s.cfg.mboxWriteAddr.toNat (doorbell s.cfg s.lat.ch) :: s.events) ∧
  ∀ (c : Config) (ch : BitVec 4),
    doorbell c ch = (c.bufAddr &&& 0xFFFFFFF0) ||| ch.setWidth 32 ∧
    (doorbell c ch).extractLsb' 4 28 = c.bufAddr.extractLsb' 4 28 ∧ (doorbell c ch).extractLsb' 0 4 = ch ∧
    (c.bufAddr.toNat % 16 = 0 → (doorbell c ch).toNat = c.bufAddr.toNat + ch.toNat)

/-- R171: MBOX.CALL's Issue step latches the channel and the doorbell and enters MB_WAIT_WRITABLE, with no access and no
result; the two rows' CMD words are 0x1C and 0x8C, every other CMD of the opcode is illegal, and BUF_ADDR leaves the low 4
bits free. -/
def Obligations.MboxCallIssueAssemblesTheDoorbell : Prop :=
  (∀ (s : State) (i : Instr) (ch : BitVec 4), CallOn i ch →
    exec i s = .next { s with phase := .mbWaitWritable, lat := callLatches s ch }) ∧
  (∀ cmd opa opb : Word, (decode cmd opa opb = .legal .mboxCallFb ↔ cmd = 0x0000001C) ∧
    (decode cmd opa opb = .legal .mboxCallProp ↔ cmd = 0x0000008C) ∧
    (opOf cmd = 0xC → cmd ≠ 0x0000001C → cmd ≠ 0x0000008C → ∃ r, decode cmd opa opb = .illegal r)) ∧
  ∀ s : State, configWellFormed s.cfg = true → s.cfg.bufAddr.toNat % 16 = 0

/-- R172: the write-poll. -/
def Obligations.WritePollSpinsWhileFull : Prop :=
  ∀ s : State, configWellFormed s.cfg = true → s.phase = .mbWaitWritable →
    ctrlStep s = .next { drawn s.cfg.mboxStatusAddr.toNat s with
      phase := if readValue s.cfg.mboxStatusAddr.toNat s &&& s.cfg.mboxFullMask ≠ 0 then .mbWaitWritable else .mbPublish,
      events := readEvent s.cfg.mboxStatusAddr.toNat (readValue s.cfg.mboxStatusAddr.toNat s) :: s.events }

/-- R173: the doorbell is written exactly once per call, after the first status read that showed "not full": the accesses of
a call, any number of controller steps after Issue, oldest last. -/
def Obligations.DoorbellIsPublishedExactlyOnce : Prop :=
  (∀ s : State, configWellFormed s.cfg = true → s.phase = .mbPublish →
    ∃ m, ctrlStep s = .next { s with
        phase := .mbWaitReadable, mem := m, inbox := s.inbox ++ [s.lat.db],
        events := writeEvent s.cfg.mboxWriteAddr.toNat s.lat.db :: s.events } ∧
      WordWritten s m s.cfg.mboxWriteAddr.toNat s.lat.db) ∧
  ∀ (s t : State) (i : Instr) (ch : BitVec 4) (n : Nat), configWellFormed s.cfg = true → CallOn i ch →
    runCommand i n s = .next t →
    ∃ late early, t.events = late ++ early ++ s.events ∧
      (t.phase = .mbWaitWritable →
        late = [] ∧ ∀ e ∈ early, ∃ v, e = readEvent s.cfg.mboxStatusAddr.toNat v ∧ v &&& s.cfg.mboxFullMask ≠ 0) ∧
      (t.phase ≠ .mbWaitWritable →
        ∃ v fulls, early = readEvent s.cfg.mboxStatusAddr.toNat v :: fulls ∧ v &&& s.cfg.mboxFullMask = 0 ∧
          (∀ e ∈ fulls, ∃ u, e = readEvent s.cfg.mboxStatusAddr.toNat u ∧ u &&& s.cfg.mboxFullMask ≠ 0) ∧
          (t.phase = .mbPublish → late = []) ∧
          (t.phase ≠ .mbPublish → ∃ reads,
            late = reads ++ [writeEvent s.cfg.mboxWriteAddr.toNat ((s.cfg.bufAddr &&& 0xFFFFFFF0) ||| ch.setWidth 32)] ∧
            ∀ e ∈ reads, e.kind = .read))

/-- R174: the read-poll. -/
def Obligations.ReadPollSpinsWhileEmpty : Prop :=
  ∀ s : State, configWellFormed s.cfg = true → s.phase = .mbWaitReadable →
    ctrlStep s = .next { drawn s.cfg.mboxStatusAddr.toNat s with
      phase := if readValue s.cfg.mboxStatusAddr.toNat s &&& s.cfg.mboxEmptyMask ≠ 0 then .mbWaitReadable else .mbCheckEcho,
      events := readEvent s.cfg.mboxStatusAddr.toNat (readValue s.cfg.mboxStatusAddr.toNat s) :: s.events }

/-- R175: echo-match on all 32 bits; a mismatched word is discarded and nothing of it is kept but `L.echo`. -/
def Obligations.EchoMatchComparesTheWholeWord : Prop :=
  ∀ s : State, configWellFormed s.cfg = true → s.phase = .mbCheckEcho →
    ctrlStep s = .next { drawn s.cfg.mboxReadAddr.toNat s with
      phase := if readValue s.cfg.mboxReadAddr.toNat s = s.lat.db then .mbCheckResponse else .mbWaitReadable,
      lat := { s.lat with echo := readValue s.cfg.mboxReadAddr.toNat s },
      events := readEvent s.cfg.mboxReadAddr.toNat (readValue s.cfg.mboxReadAddr.toNat s) :: s.events }

/-- R176: flag-parse, equality on the whole of buffer word 1; the buffer keeps what it holds. -/
def Obligations.FlagParseTestsTheWholeWord : Prop :=
  ∀ s : State, s.phase = .mbCheckResponse →
    ctrlStep s =
      (let a := s.cfg.bufAddr.toNat + 4 * 1
       .next { drawn a s with
         phase := .idle, resCode := if readValue a s = 0x80000000 then .ok else .errResponse,
         resData := readValue a s, resInfo := s.lat.db,
         events := ⟨.ctrl, .read, .buffer, a, readValue a s⟩ :: s.events })

/-- MBOX.CALL with a status that shows "not full" and then "not empty", an echo that matches and word 1 in the buffer
completes in five controller steps (R171-R176); the result is OK exactly when word 1 is 0x80000000. Word 1 may be stale
(R236). -/
def Obligations.MboxCallCompletes : Prop :=
  ∀ (s : State) (i : Instr) (ch : BitVec 4) (st0 st1 w1 : Word) (rest : List (Nat × Word)),
    configWellFormed s.cfg = true → CallOn i ch →
    st0 &&& s.cfg.mboxFullMask = 0 → st1 &&& s.cfg.mboxEmptyMask = 0 →
    s.mem.wordAt s.cfg.mboxStatusAddr.toNat = none → s.mem.wordAt s.cfg.mboxReadAddr.toNat = none →
    storesAt s.cfg.mboxWriteAddr.toNat s = false → s.mem.wordAt (s.cfg.bufAddr.toNat + 4) = some w1 →
    s.answers = (s.cfg.mboxStatusAddr.toNat, st0) :: (s.cfg.mboxStatusAddr.toNat, st1) ::
      (s.cfg.mboxReadAddr.toNat, doorbell s.cfg ch) :: rest →
    Completes i 5 s { s with
      phase := .idle, resCode := if w1 = 0x80000000 then .ok else .errResponse, resData := w1,
      resInfo := doorbell s.cfg ch, answers := rest, inbox := s.inbox ++ [doorbell s.cfg ch],
      lat := { callLatches s ch with echo := doorbell s.cfg ch },
      events := [⟨.ctrl, .read, .buffer, s.cfg.bufAddr.toNat + 4, w1⟩,
        readEvent s.cfg.mboxReadAddr.toNat (doorbell s.cfg ch), readEvent s.cfg.mboxStatusAddr.toNat st1,
        writeEvent s.cfg.mboxWriteAddr.toNat (doorbell s.cfg ch), readEvent s.cfg.mboxStatusAddr.toNat st0] ++ s.events }

/-- R177: a call reads the buffer only in MB_CHECK_RESPONSE, and MB_CHECK_RESPONSE is entered only by reading, from
MBOX_READ_ADDR, a word equal to `L.db`; the only buffer word read is word 1. -/
def Obligations.OnlyAMatchingEchoIsTheResponse : Prop :=
  (∀ (s t : State) (e : Event), mailboxPhase s.phase = true → step s = .next t → t.events = e :: s.events →
    e.performer = .ctrl → e.space = .buffer →
    s.phase = .mbCheckResponse ∧ e.kind = .read ∧ e.addr = s.cfg.bufAddr.toNat + 4) ∧
  ∀ s t : State, step s = .next t → t.phase = .mbCheckResponse → s.phase ≠ .mbCheckResponse →
    s.phase = .mbCheckEcho ∧ t.lat.db = s.lat.db ∧ t.lat.echo = s.lat.db ∧
    t.events = readEvent s.cfg.mboxReadAddr.toNat s.lat.db :: s.events

/-- R178: in every run without a reset, a mailbox that answers "full" to every poll, or "empty" to every poll, or never
returns a matching word keeps the call in its polling phases forever, with no result and no further Issue. The infinite run
is kept: where the mailbox's registers keep such values, the controller can take any number of steps. -/
def Obligations.UnresponsiveMailboxBlocksForever : Prop :=
  (∀ r : Nat → State, IsRun r → Turn.reset ∉ (r 0).turns →
    ((r 0).phase = .mbWaitWritable →
      (∀ n v, ReadsAt r n (r n).cfg.mboxStatusAddr.toNat v → v &&& (r n).cfg.mboxFullMask ≠ 0) →
      ∀ n, (r n).phase = .mbWaitWritable ∧ (r n).inbox.length ≤ (r 0).inbox.length ∧
        (r n).resCode = (r 0).resCode ∧ (r n).resData = (r 0).resData ∧ (r n).resInfo = (r 0).resInfo ∧
        (r n).port = (r 0).port) ∧
    ((r 0).phase = .mbWaitReadable →
      (∀ n v, ReadsAt r n (r n).cfg.mboxStatusAddr.toNat v → v &&& (r n).cfg.mboxEmptyMask ≠ 0) →
      ∀ n, (r n).phase = .mbWaitReadable ∧
        (r n).resCode = (r 0).resCode ∧ (r n).resData = (r 0).resData ∧ (r n).resInfo = (r 0).resInfo ∧
        (r n).port = (r 0).port) ∧
    ((r 0).phase = .mbWaitReadable ∨ (r 0).phase = .mbCheckEcho →
      (∀ n, ¬ ReadsAt r n (r n).cfg.mboxReadAddr.toNat (r n).lat.db) →
      ∀ n, ((r n).phase = .mbWaitReadable ∨ (r n).phase = .mbCheckEcho) ∧
        (r n).resCode = (r 0).resCode ∧ (r n).resData = (r 0).resData ∧ (r n).resInfo = (r 0).resInfo ∧
        (r n).port = (r 0).port)) ∧
  ∀ (s : State) (n : Nat), configWellFormed s.cfg = true →
    (∀ v, s.phase = .mbWaitWritable → s.mem.wordAt s.cfg.mboxStatusAddr.toNat = some v → v &&& s.cfg.mboxFullMask ≠ 0 →
      ctrlSteps n s = .next { s with
        events := List.replicate n (readEvent s.cfg.mboxStatusAddr.toNat v) ++ s.events }) ∧
    (∀ v, s.phase = .mbWaitReadable → s.mem.wordAt s.cfg.mboxStatusAddr.toNat = some v → v &&& s.cfg.mboxEmptyMask ≠ 0 →
      ctrlSteps n s = .next { s with
        events := List.replicate n (readEvent s.cfg.mboxStatusAddr.toNat v) ++ s.events }) ∧
    (∀ v e, s.phase = .mbWaitReadable ∨ s.phase = .mbCheckEcho → s.mem.wordAt s.cfg.mboxStatusAddr.toNat = some v →
      s.mem.wordAt s.cfg.mboxReadAddr.toNat = some e → e ≠ s.lat.db →
      ∃ t, ctrlSteps n s = .next t ∧ (t.phase = .mbWaitReadable ∨ t.phase = .mbCheckEcho) ∧
        t.resCode = s.resCode ∧ t.resData = s.resData ∧ t.resInfo = s.resInfo ∧ t.port = s.port)

/-- Under EnvWritable and EnvEchoes of R181, with no reset, a call that is polling for "not full" ends, with OK or
ERR_RESPONSE and the doorbell. That the block always moves again is the model's choice: a schedule is finite and after it
the block moves (log 8). -/
def Obligations.CallEndsWhenTheMailboxAnswers : Prop :=
  ∀ (r : Nat → State), IsRun r → EnvWritable r → EnvEchoes r → Turn.reset ∉ (r 0).turns →
    (r 0).phase = .mbWaitWritable →
    ∃ n, (r n).phase = .idle ∧ ((r n).resCode = .ok ∨ (r n).resCode = .errResponse) ∧ (r n).resInfo = (r 0).lat.db

/-- Under EnvRespondsBeforeEcho of R181, a call that ends with OK after a matching echo ends so because MBOX_HW wrote the
response flag to word 1 during the call. (The model's reading of that assumption is log 25.) -/
def Obligations.OkMeansTheGpuWroteTheFlag : Prop :=
  ∀ (r : Nat → State) (m p : Nat), IsRun r → EnvRespondsBeforeEcho r → (r m).phase = .mbCheckEcho →
    ReadsAt r m (r m).cfg.mboxReadAddr.toNat (r m).lat.db → m < p →
    (∀ q, m < q → q ≤ p → (r q).phase = .mbCheckResponse) → (r (p + 1)).phase = .idle → (r (p + 1)).resCode = .ok →
    ∃ j, j < m ∧ callInFlight (r j) = true ∧ GpuWritesAt r j 1 0x80000000

/-! ## Results, fatal conditions, reset -/

/-- The numbers of R200: a code is fatal exactly when its bit 3 is set, and 5-7 and 12-15 are never produced. -/
def Obligations.ResultCodeNumbers : Prop :=
  [ResCode.noResult, .ok, .errRange, .errResponse, .errIllegal, .fatalWindow, .fatalAlign, .fatalBufIndex,
    .fatalComposite].map ResCode.bits = [0, 1, 2, 3, 4, 8, 9, 10, 11] ∧
  ∀ c : ResCode, (c.isFatal = true ↔ c.bits.getLsbD 3 = true) ∧ c.bits.toNat ∉ [5, 6, 7, 12, 13, 14, 15]

/-- R22: the results change only at a reset, or at a step that accepts or runs a command and leaves it ended or fatal; BUSY
and FAULT are functions of `phase`, STATUS packs them with RES_CODE, and all are 0 after reset. -/
def Obligations.OutputsOfTheBlock : Prop :=
  (∀ s t : State, step s = .next t → (t.resCode, t.resData, t.resInfo) ≠ (s.resCode, s.resData, s.resInfo) →
    (∃ ts, s.turns = .reset :: ts) ∨
    (((s.phase = .idle ∧ ∃ c, s.port = c :: t.port) ∨ (s.phase ≠ .idle ∧ s.phase ≠ .faulted)) ∧
      (t.phase = .idle ∨ t.phase = .faulted))) ∧
  (∀ s : State, (s.busy = true ↔ s.phase ≠ .idle ∧ s.phase ≠ .faulted) ∧ (s.faultFlag = true ↔ s.phase = .faulted) ∧
    s.status.getLsbD 0 = s.busy ∧ s.status.getLsbD 1 = s.faultFlag ∧ s.status.extractLsb' 4 4 = s.resCode.bits ∧
    ∀ k, k = 2 ∨ k = 3 ∨ 8 ≤ k → s.status.getLsbD k = false) ∧
  (State.reset.resCode = .noResult ∧ State.reset.resData = 0 ∧ State.reset.resInfo = 0 ∧
    State.reset.busy = false ∧ State.reset.faultFlag = false)

/-- R201: `complete` writes the result and returns to IDLE, and nothing else; the next command may then be issued; a
recoverable error is recorded by a step that changes no memory and writes nothing, a range error at Issue. -/
def Obligations.CompleteEndsACommand : Prop :=
  (∀ (code : ResCode) (data info : Word) (s : State),
    complete code data info s = { s with resCode := code, resData := data, resInfo := info, phase := .idle } ∧
    ∀ c cs, s.port = c :: cs →
      blockTurn (complete code data info s) = issue c { complete code data info s with port := cs }) ∧
  ∀ s t : State, step s = .next t → (t.resCode, t.resData, t.resInfo) ≠ (s.resCode, s.resData, s.resInfo) →
    t.resCode = .errRange ∨ t.resCode = .errResponse ∨ t.resCode = .errIllegal →
    t.phase = .idle ∧ t.mem = s.mem ∧ (t.events = s.events ∨ ∃ e, t.events = e :: s.events ∧ e.kind = .read) ∧
      (t.resCode = .errRange → s.phase = .idle)

/-- R202: `raise Fatal` records the code and RES_INFO, zeroes RES_DATA and enters FAULTED; the step that enters FAULTED makes
no access; there the block takes no step and accepts no Issue, FAULT reads 1 and BUSY 0, no step but reset leaves FAULTED or
clears the record. -/
def Obligations.FatalConditionIsSticky : Prop :=
  (∀ s t : State, Inv s → step s = .next t → s.phase ≠ .faulted → t.phase = .faulted →
    t.events = s.events ∧ t.mem = s.mem ∧ t.inbox = s.inbox) ∧
  (∀ (code : ResCode) (info : Word) (s : State),
    raiseFatal code info s = { s with resCode := code, resData := 0, resInfo := info, phase := .faulted }) ∧
  (∀ s : State, s.phase = .faulted →
    s.faultFlag = true ∧ s.busy = false ∧ ∀ t, blockTurn s ≠ .next t) ∧
  ∀ s t : State, s.phase = .faulted → step s = .next t →
    (t.phase = .faulted ∧ t.resCode = s.resCode ∧ t.resInfo = s.resInfo ∧ t.resData = s.resData ∧ t.port = s.port) ∨
    ∃ ts, s.turns = .reset :: ts

/-- R230: reset of a running machine puts phase and results at their reset values and leaves the latches unspecified; the
registers, MBOX_HW's queues and the buffer are untouched, accesses made stay made. That the answers the environment has
fixed stay (log 3), that the doorbells handed over and the record of accesses stay (log 17) and that the commands HOST waits
to issue stay (log 18) is the model's choice where R230 does not name them. -/
def Obligations.ResetTouchesOnlyTheBlock : Prop :=
  (State.reset.phase = .idle ∧ State.reset.resCode = .noResult ∧ State.reset.resData = 0 ∧ State.reset.resInfo = 0 ∧
    State.reset.status = 0) ∧
  ∀ (s : State) (ts : List Turn), configWellFormed s.cfg = true → s.turns = .reset :: ts →
    ∃ l d, step s = .next { s with
      turns := ts, phase := .idle, resCode := .noResult, resData := 0, resInfo := 0, lat := l, draws := d }

/-- What the latches hold before a command is issued can never be observed, in any number of steps (R24). -/
def Obligations.LatchesAtResetAreNeverObserved : Prop :=
  ∀ (s : State) (l : Latches) (n : Nat), s.phase = .idle →
    outcomeWithoutLatches (Host.Core.run core n s) =
      outcomeWithoutLatches (Host.Core.run core n { s with lat := l })

/-! ## The invariant -/

/-- The invariant holds after reset. -/
def Obligations.InvariantAtReset : Prop := Inv State.reset

/-- Every step keeps the invariant: memory stays canonical, a fatal code is recorded exactly in FAULTED, the latches of each
phase agree with one another, FP_WRITE writes the merged word at an admitted register (R126: "it cannot raise"), and
MB_CHECK_RESPONSE is entered only on a matching echo. -/
def Obligations.EveryStepKeepsTheInvariant : Prop :=
  ∀ s t : State, Inv s → step s = .next t → Inv t
end

