-- ==== Sys2Proof/Laws/Decode.lean ====
section
/-! SUPPORT. The fields of a CMD word and the word of its fields (30_encoding.md rule R91). -/

namespace Sys2Proof

/-- Bit `i` of a CMD word, from its fields. -/
theorem cmdWord_getLsbD (op ch : BitVec 4) (pin : BitVec 8) (w : BitVec 6) (m : BitVec 8) (i : Nat) :
    (cmdWord op ch pin w m).getLsbD i =
      if i < 4 then op.getLsbD i else if i < 8 then ch.getLsbD (i - 4) else if i < 16 then pin.getLsbD (i - 8)
      else if i < 22 then w.getLsbD (i - 16) else if i < 30 then m.getLsbD (i - 22) else false := by
  unfold cmdWord
  simp only [BitVec.getLsbD_append, BitVec.getLsbD_zero]
  split_ifs <;> first | rfl | omega

section
variable (op ch : BitVec 4) (pin : BitVec 8) (w : BitVec 6) (m : BitVec 8)

theorem opOf_cmdWord : opOf (cmdWord op ch pin w m) = op := by
  refine BitVec.eq_of_getLsbD_eq fun i hi => ?_
  simp only [opOf, BitVec.getLsbD_extractLsb', cmdWord_getLsbD]
  split_ifs <;> first | omega | simp [hi]

theorem chOf_cmdWord : chOf (cmdWord op ch pin w m) = ch := by
  refine BitVec.eq_of_getLsbD_eq fun i hi => ?_
  simp only [chOf, BitVec.getLsbD_extractLsb', cmdWord_getLsbD]
  split_ifs <;> first | omega | simp [hi]

theorem pinOf_cmdWord : pinOf (cmdWord op ch pin w m) = pin := by
  refine BitVec.eq_of_getLsbD_eq fun i hi => ?_
  simp only [pinOf, BitVec.getLsbD_extractLsb', cmdWord_getLsbD]
  split_ifs <;> first | omega | simp [hi]

theorem widthOf_cmdWord : widthOf (cmdWord op ch pin w m) = w := by
  refine BitVec.eq_of_getLsbD_eq fun i hi => ?_
  simp only [widthOf, BitVec.getLsbD_extractLsb', cmdWord_getLsbD]
  split_ifs <;> first | omega | simp [hi]

theorem maxpOf_cmdWord : maxpOf (cmdWord op ch pin w m) = m := by
  refine BitVec.eq_of_getLsbD_eq fun i hi => ?_
  simp only [maxpOf, BitVec.getLsbD_extractLsb', cmdWord_getLsbD]
  split_ifs <;> first | omega | simp [hi]

theorem rsvOf_cmdWord : rsvOf (cmdWord op ch pin w m) = 0 := by
  refine BitVec.eq_of_getLsbD_eq fun i hi => ?_
  simp only [rsvOf, BitVec.getLsbD_extractLsb', cmdWord_getLsbD]
  split_ifs <;> first | omega | simp
end

/-- A CMD whose reserved bits are 0 is the word of its fields. -/
theorem cmdWord_of_fields {cmd : Word} (h : rsvOf cmd = 0) :
    cmdWord (opOf cmd) (chOf cmd) (pinOf cmd) (widthOf cmd) (maxpOf cmd) = cmd := by
  refine BitVec.eq_of_getLsbD_eq fun i hi => ?_
  simp only [cmdWord_getLsbD, opOf, chOf, pinOf, widthOf, maxpOf, BitVec.getLsbD_extractLsb']
  have top : 30 ≤ i → cmd.getLsbD i = false := fun h30 => by
    have := congrArg (fun x => x.getLsbD (i - 30)) h
    simp only [rsvOf, BitVec.getLsbD_extractLsb', show i - 30 < 2 by omega, decide_true,
      Bool.true_and] at this
    rw [show 30 + (i - 30) = i by omega] at this
    simpa using this
  split_ifs with h1 h2 h3 h4 h5
  · simp [h1]
  · rw [show 4 + (i - 4) = i by omega]; simp; omega
  · rw [show 8 + (i - 8) = i by omega]; simp; omega
  · rw [show 16 + (i - 16) = i by omega]; simp; omega
  · rw [show 22 + (i - 22) = i by omega]; simp; omega
  · exact (top (by omega)).symm

end Sys2Proof
end

