-- ==== Sys2Proof/Laws/Memory.lean ====
section
/-! SUPPORT. The laws of memory: a read after a write, by byte and by word, and the canonical form. -/

namespace Sys2Proof.Machine

/-! ## Bytes -/

theorem Memory.byteAt_setByte (m : Memory) (a : Nat) (x : Byte) (b : Nat) :
    (m.setByte a x).byteAt b = if b = a then some x else m.byteAt b := by
  induction m with
  | nil => simp [Memory.setByte, Memory.byteAt]
  | cons c m ih =>
    obtain ⟨k, y⟩ := c
    unfold Memory.setByte
    split
    · simp [Memory.byteAt]
    · split
      · subst_vars
        by_cases h : b = k <;> simp [Memory.byteAt, h]
      · rename_i h1 h2
        simp only [Memory.byteAt, ih]
        by_cases h : b = k
        · subst h
          simp [Ne.symm h2]
        · simp [h]

@[simp] theorem Memory.byteAt_setByte_same (m : Memory) (a : Nat) (x : Byte) :
    (m.setByte a x).byteAt a = some x := by simp [Memory.byteAt_setByte]

theorem Memory.byteAt_setByte_other (m : Memory) {a b : Nat} (x : Byte) (h : b ≠ a) :
    (m.setByte a x).byteAt b = m.byteAt b := by simp [Memory.byteAt_setByte, h]

theorem Memory.setByte_mem {m : Memory} {a : Nat} {x : Byte} {c : Host.Cell} (h : c ∈ m.setByte a x) :
    c = (a, x) ∨ c ∈ m := by
  induction m with
  | nil => simpa [Memory.setByte] using h
  | cons d m ih =>
    obtain ⟨k, y⟩ := d
    unfold Memory.setByte at h
    split at h
    · simpa using h
    · split at h
      · rcases List.mem_cons.1 h with h | h
        · exact .inl h
        · exact .inr (List.mem_cons_of_mem _ h)
      · rcases List.mem_cons.1 h with h | h
        · exact .inr (h ▸ List.mem_cons_self ..)
        · exact (ih h).imp id (List.mem_cons_of_mem _)

theorem Memory.setByte_sorted {m : Memory} (a : Nat) (x : Byte) (h : m.Pairwise fun c d => c.1 < d.1) :
    (m.setByte a x).Pairwise fun c d => c.1 < d.1 := by
  induction m with
  | nil => simp [Memory.setByte]
  | cons d m ih =>
    obtain ⟨k, y⟩ := d
    have hk := List.pairwise_cons.1 h
    unfold Memory.setByte
    split
    · rename_i hak
      refine List.pairwise_cons.2 ⟨fun c hc => ?_, h⟩
      rcases List.mem_cons.1 hc with rfl | hc
      · exact hak
      · exact Nat.lt_trans hak (hk.1 c hc)
    · split
      · rename_i hak
        subst hak
        exact List.pairwise_cons.2 ⟨hk.1, hk.2⟩
      · refine List.pairwise_cons.2 ⟨fun c hc => ?_, ih hk.2⟩
        rcases Memory.setByte_mem hc with rfl | hc
        · simp only
          omega
        · exact hk.1 c hc

theorem Memory.wf_iff (m : Memory) :
    m.wf = true ↔ m.Pairwise (fun c d => c.1 < d.1) ∧ ∀ c ∈ m, c.1 < 2 ^ 32 := by
  simp [Memory.wf]

/-- Writing a byte of the address space keeps the canonical form. -/
theorem Memory.setByte_wf {m : Memory} {a : Nat} (x : Byte) (ha : a < 2 ^ 32) (h : m.wf = true) :
    (m.setByte a x).wf = true := by
  rw [Memory.wf_iff] at h ⊢
  refine ⟨Memory.setByte_sorted a x h.1, fun c hc => ?_⟩
  rcases Memory.setByte_mem hc with rfl | hc
  · exact ha
  · exact h.2 c hc

/-! ## Words -/

@[simp] theorem wordOfBytes_byteOfWord (v : Word) :
    wordOfBytes (byteOfWord v 0) (byteOfWord v 1) (byteOfWord v 2) (byteOfWord v 3) = v := by
  unfold wordOfBytes byteOfWord
  ext i hi
  simp only [BitVec.getElem_append, BitVec.getElem_extractLsb']
  repeat' split
  all_goals
    rw [← BitVec.getLsbD_eq_getElem]
    congr 1
    omega

/-- Writing a word keeps the canonical form. -/
theorem Memory.setWord_wf {m : Memory} {a : Nat} (v : Word) (ha : a + 3 < 2 ^ 32) (h : m.wf = true) :
    (m.setWord a v).wf = true := by
  unfold Memory.setWord
  exact Memory.setByte_wf _ (by omega) (Memory.setByte_wf _ (by omega)
    (Memory.setByte_wf _ (by omega) (Memory.setByte_wf _ (by omega) h)))

/-- A byte outside the four written reads as before. -/
theorem Memory.byteAt_setWord_outside (m : Memory) {a b : Nat} (v : Word) (h : b < a ∨ a + 4 ≤ b) :
    (m.setWord a v).byteAt b = m.byteAt b := by
  unfold Memory.setWord
  simp only [Memory.byteAt_setByte]
  split_ifs <;> first | omega | rfl

/-- A word read after it is written gives the value written. -/
@[simp] theorem Memory.wordAt_setWord_same (m : Memory) (a : Nat) (v : Word) :
    (m.setWord a v).wordAt a = some v := by
  unfold Memory.wordAt Memory.setWord
  simp [Memory.byteAt_setByte]

/-- A word that shares no byte with the one written reads as before. -/
theorem Memory.wordAt_setWord_apart (m : Memory) {a b : Nat} (v : Word) (h : b + 4 ≤ a ∨ a + 4 ≤ b) :
    (m.setWord a v).wordAt b = m.wordAt b := by
  unfold Memory.wordAt
  rw [Memory.byteAt_setWord_outside m v (by omega), Memory.byteAt_setWord_outside m v (by omega),
    Memory.byteAt_setWord_outside m v (by omega), Memory.byteAt_setWord_outside m v (by omega)]

end Sys2Proof.Machine
end

