-- ==== Sys2Proof/Laws/State.lean ====
section
/-! SUPPORT. One lemma per field of State for each update the machine makes, true by rfl, so that no later proof unfolds a
record update. -/

namespace Sys2Proof.Machine

/-! ## record -/

@[simp] theorem record_cfg (e : Event) (s : State) : (record e s).cfg = s.cfg := rfl
@[simp] theorem record_phase (e : Event) (s : State) : (record e s).phase = s.phase := rfl
@[simp] theorem record_resCode (e : Event) (s : State) : (record e s).resCode = s.resCode := rfl
@[simp] theorem record_resData (e : Event) (s : State) : (record e s).resData = s.resData := rfl
@[simp] theorem record_resInfo (e : Event) (s : State) : (record e s).resInfo = s.resInfo := rfl
@[simp] theorem record_lat (e : Event) (s : State) : (record e s).lat = s.lat := rfl
@[simp] theorem record_mem (e : Event) (s : State) : (record e s).mem = s.mem := rfl
@[simp] theorem record_answers (e : Event) (s : State) : (record e s).answers = s.answers := rfl
@[simp] theorem record_inbox (e : Event) (s : State) : (record e s).inbox = s.inbox := rfl
@[simp] theorem record_port (e : Event) (s : State) : (record e s).port = s.port := rfl
@[simp] theorem record_turns (e : Event) (s : State) : (record e s).turns = s.turns := rfl
@[simp] theorem record_draws (e : Event) (s : State) : (record e s).draws = s.draws := rfl
@[simp] theorem record_events (e : Event) (s : State) : (record e s).events = e :: s.events := rfl

/-! ## setPhase -/

@[simp] theorem setPhase_cfg (p : Phase) (s : State) : (setPhase p s).cfg = s.cfg := rfl
@[simp] theorem setPhase_phase (p : Phase) (s : State) : (setPhase p s).phase = p := rfl
@[simp] theorem setPhase_resCode (p : Phase) (s : State) : (setPhase p s).resCode = s.resCode := rfl
@[simp] theorem setPhase_resData (p : Phase) (s : State) : (setPhase p s).resData = s.resData := rfl
@[simp] theorem setPhase_resInfo (p : Phase) (s : State) : (setPhase p s).resInfo = s.resInfo := rfl
@[simp] theorem setPhase_lat (p : Phase) (s : State) : (setPhase p s).lat = s.lat := rfl
@[simp] theorem setPhase_mem (p : Phase) (s : State) : (setPhase p s).mem = s.mem := rfl
@[simp] theorem setPhase_answers (p : Phase) (s : State) : (setPhase p s).answers = s.answers := rfl
@[simp] theorem setPhase_inbox (p : Phase) (s : State) : (setPhase p s).inbox = s.inbox := rfl
@[simp] theorem setPhase_port (p : Phase) (s : State) : (setPhase p s).port = s.port := rfl
@[simp] theorem setPhase_turns (p : Phase) (s : State) : (setPhase p s).turns = s.turns := rfl
@[simp] theorem setPhase_draws (p : Phase) (s : State) : (setPhase p s).draws = s.draws := rfl
@[simp] theorem setPhase_events (p : Phase) (s : State) : (setPhase p s).events = s.events := rfl

/-! ## setLat -/

@[simp] theorem setLat_cfg (l : Latches) (s : State) : (setLat l s).cfg = s.cfg := rfl
@[simp] theorem setLat_phase (l : Latches) (s : State) : (setLat l s).phase = s.phase := rfl
@[simp] theorem setLat_resCode (l : Latches) (s : State) : (setLat l s).resCode = s.resCode := rfl
@[simp] theorem setLat_resData (l : Latches) (s : State) : (setLat l s).resData = s.resData := rfl
@[simp] theorem setLat_resInfo (l : Latches) (s : State) : (setLat l s).resInfo = s.resInfo := rfl
@[simp] theorem setLat_lat (l : Latches) (s : State) : (setLat l s).lat = l := rfl
@[simp] theorem setLat_mem (l : Latches) (s : State) : (setLat l s).mem = s.mem := rfl
@[simp] theorem setLat_answers (l : Latches) (s : State) : (setLat l s).answers = s.answers := rfl
@[simp] theorem setLat_inbox (l : Latches) (s : State) : (setLat l s).inbox = s.inbox := rfl
@[simp] theorem setLat_port (l : Latches) (s : State) : (setLat l s).port = s.port := rfl
@[simp] theorem setLat_turns (l : Latches) (s : State) : (setLat l s).turns = s.turns := rfl
@[simp] theorem setLat_draws (l : Latches) (s : State) : (setLat l s).draws = s.draws := rfl
@[simp] theorem setLat_events (l : Latches) (s : State) : (setLat l s).events = s.events := rfl

/-! ## complete -/

@[simp] theorem complete_cfg (code : ResCode) (data info : Word) (s : State) : (complete code data info s).cfg = s.cfg := rfl
@[simp] theorem complete_phase (code : ResCode) (data info : Word) (s : State) : (complete code data info s).phase = .idle := rfl
@[simp] theorem complete_resCode (code : ResCode) (data info : Word) (s : State) : (complete code data info s).resCode = code := rfl
@[simp] theorem complete_resData (code : ResCode) (data info : Word) (s : State) : (complete code data info s).resData = data := rfl
@[simp] theorem complete_resInfo (code : ResCode) (data info : Word) (s : State) : (complete code data info s).resInfo = info := rfl
@[simp] theorem complete_lat (code : ResCode) (data info : Word) (s : State) : (complete code data info s).lat = s.lat := rfl
@[simp] theorem complete_mem (code : ResCode) (data info : Word) (s : State) : (complete code data info s).mem = s.mem := rfl
@[simp] theorem complete_answers (code : ResCode) (data info : Word) (s : State) : (complete code data info s).answers = s.answers := rfl
@[simp] theorem complete_inbox (code : ResCode) (data info : Word) (s : State) : (complete code data info s).inbox = s.inbox := rfl
@[simp] theorem complete_port (code : ResCode) (data info : Word) (s : State) : (complete code data info s).port = s.port := rfl
@[simp] theorem complete_turns (code : ResCode) (data info : Word) (s : State) : (complete code data info s).turns = s.turns := rfl
@[simp] theorem complete_draws (code : ResCode) (data info : Word) (s : State) : (complete code data info s).draws = s.draws := rfl
@[simp] theorem complete_events (code : ResCode) (data info : Word) (s : State) : (complete code data info s).events = s.events := rfl

/-! ## raiseFatal -/

@[simp] theorem raiseFatal_cfg (code : ResCode) (info : Word) (s : State) : (raiseFatal code info s).cfg = s.cfg := rfl
@[simp] theorem raiseFatal_phase (code : ResCode) (info : Word) (s : State) : (raiseFatal code info s).phase = .faulted := rfl
@[simp] theorem raiseFatal_resCode (code : ResCode) (info : Word) (s : State) : (raiseFatal code info s).resCode = code := rfl
@[simp] theorem raiseFatal_resData (code : ResCode) (info : Word) (s : State) : (raiseFatal code info s).resData = 0 := rfl
@[simp] theorem raiseFatal_resInfo (code : ResCode) (info : Word) (s : State) : (raiseFatal code info s).resInfo = info := rfl
@[simp] theorem raiseFatal_lat (code : ResCode) (info : Word) (s : State) : (raiseFatal code info s).lat = s.lat := rfl
@[simp] theorem raiseFatal_mem (code : ResCode) (info : Word) (s : State) : (raiseFatal code info s).mem = s.mem := rfl
@[simp] theorem raiseFatal_answers (code : ResCode) (info : Word) (s : State) : (raiseFatal code info s).answers = s.answers := rfl
@[simp] theorem raiseFatal_inbox (code : ResCode) (info : Word) (s : State) : (raiseFatal code info s).inbox = s.inbox := rfl
@[simp] theorem raiseFatal_port (code : ResCode) (info : Word) (s : State) : (raiseFatal code info s).port = s.port := rfl
@[simp] theorem raiseFatal_turns (code : ResCode) (info : Word) (s : State) : (raiseFatal code info s).turns = s.turns := rfl
@[simp] theorem raiseFatal_draws (code : ResCode) (info : Word) (s : State) : (raiseFatal code info s).draws = s.draws := rfl
@[simp] theorem raiseFatal_events (code : ResCode) (info : Word) (s : State) : (raiseFatal code info s).events = s.events := rfl

/-! ## completeIllegal -/

@[simp] theorem completeIllegal_cfg (cmd : Word) (s : State) : (completeIllegal cmd s).cfg = s.cfg := rfl
@[simp] theorem completeIllegal_phase (cmd : Word) (s : State) : (completeIllegal cmd s).phase = .idle := rfl
@[simp] theorem completeIllegal_resCode (cmd : Word) (s : State) : (completeIllegal cmd s).resCode = .errIllegal := rfl
@[simp] theorem completeIllegal_resData (cmd : Word) (s : State) : (completeIllegal cmd s).resData = 0 := rfl
@[simp] theorem completeIllegal_resInfo (cmd : Word) (s : State) : (completeIllegal cmd s).resInfo = cmd := rfl
@[simp] theorem completeIllegal_lat (cmd : Word) (s : State) : (completeIllegal cmd s).lat = s.lat := rfl
@[simp] theorem completeIllegal_mem (cmd : Word) (s : State) : (completeIllegal cmd s).mem = s.mem := rfl
@[simp] theorem completeIllegal_answers (cmd : Word) (s : State) : (completeIllegal cmd s).answers = s.answers := rfl
@[simp] theorem completeIllegal_inbox (cmd : Word) (s : State) : (completeIllegal cmd s).inbox = s.inbox := rfl
@[simp] theorem completeIllegal_port (cmd : Word) (s : State) : (completeIllegal cmd s).port = s.port := rfl
@[simp] theorem completeIllegal_turns (cmd : Word) (s : State) : (completeIllegal cmd s).turns = s.turns := rfl
@[simp] theorem completeIllegal_draws (cmd : Word) (s : State) : (completeIllegal cmd s).draws = s.draws := rfl
@[simp] theorem completeIllegal_events (cmd : Word) (s : State) : (completeIllegal cmd s).events = s.events := rfl

/-! ## latchCmd -/

@[simp] theorem latchCmd_cfg (op ch : BitVec 4) (pin : BitVec 8) (w : BitVec 6) (maxp : BitVec 8) (s : State) : (latchCmd op ch pin w maxp s).cfg = s.cfg := rfl
@[simp] theorem latchCmd_phase (op ch : BitVec 4) (pin : BitVec 8) (w : BitVec 6) (maxp : BitVec 8) (s : State) : (latchCmd op ch pin w maxp s).phase = s.phase := rfl
@[simp] theorem latchCmd_resCode (op ch : BitVec 4) (pin : BitVec 8) (w : BitVec 6) (maxp : BitVec 8) (s : State) : (latchCmd op ch pin w maxp s).resCode = s.resCode := rfl
@[simp] theorem latchCmd_resData (op ch : BitVec 4) (pin : BitVec 8) (w : BitVec 6) (maxp : BitVec 8) (s : State) : (latchCmd op ch pin w maxp s).resData = s.resData := rfl
@[simp] theorem latchCmd_resInfo (op ch : BitVec 4) (pin : BitVec 8) (w : BitVec 6) (maxp : BitVec 8) (s : State) : (latchCmd op ch pin w maxp s).resInfo = s.resInfo := rfl
@[simp] theorem latchCmd_lat (op ch : BitVec 4) (pin : BitVec 8) (w : BitVec 6) (maxp : BitVec 8) (s : State) : (latchCmd op ch pin w maxp s).lat = { s.lat with op := op, ch := ch, pin := pin, w := w, maxp := maxp } := rfl
@[simp] theorem latchCmd_mem (op ch : BitVec 4) (pin : BitVec 8) (w : BitVec 6) (maxp : BitVec 8) (s : State) : (latchCmd op ch pin w maxp s).mem = s.mem := rfl
@[simp] theorem latchCmd_answers (op ch : BitVec 4) (pin : BitVec 8) (w : BitVec 6) (maxp : BitVec 8) (s : State) : (latchCmd op ch pin w maxp s).answers = s.answers := rfl
@[simp] theorem latchCmd_inbox (op ch : BitVec 4) (pin : BitVec 8) (w : BitVec 6) (maxp : BitVec 8) (s : State) : (latchCmd op ch pin w maxp s).inbox = s.inbox := rfl
@[simp] theorem latchCmd_port (op ch : BitVec 4) (pin : BitVec 8) (w : BitVec 6) (maxp : BitVec 8) (s : State) : (latchCmd op ch pin w maxp s).port = s.port := rfl
@[simp] theorem latchCmd_turns (op ch : BitVec 4) (pin : BitVec 8) (w : BitVec 6) (maxp : BitVec 8) (s : State) : (latchCmd op ch pin w maxp s).turns = s.turns := rfl
@[simp] theorem latchCmd_draws (op ch : BitVec 4) (pin : BitVec 8) (w : BitVec 6) (maxp : BitVec 8) (s : State) : (latchCmd op ch pin w maxp s).draws = s.draws := rfl
@[simp] theorem latchCmd_events (op ch : BitVec 4) (pin : BitVec 8) (w : BitVec 6) (maxp : BitVec 8) (s : State) : (latchCmd op ch pin w maxp s).events = s.events := rfl

/-! ## latchOpa -/

@[simp] theorem latchOpa_cfg (opa : Word) (s : State) : (latchOpa opa s).cfg = s.cfg := rfl
@[simp] theorem latchOpa_phase (opa : Word) (s : State) : (latchOpa opa s).phase = s.phase := rfl
@[simp] theorem latchOpa_resCode (opa : Word) (s : State) : (latchOpa opa s).resCode = s.resCode := rfl
@[simp] theorem latchOpa_resData (opa : Word) (s : State) : (latchOpa opa s).resData = s.resData := rfl
@[simp] theorem latchOpa_resInfo (opa : Word) (s : State) : (latchOpa opa s).resInfo = s.resInfo := rfl
@[simp] theorem latchOpa_lat (opa : Word) (s : State) : (latchOpa opa s).lat = { s.lat with base := opa, idx := opa } := rfl
@[simp] theorem latchOpa_mem (opa : Word) (s : State) : (latchOpa opa s).mem = s.mem := rfl
@[simp] theorem latchOpa_answers (opa : Word) (s : State) : (latchOpa opa s).answers = s.answers := rfl
@[simp] theorem latchOpa_inbox (opa : Word) (s : State) : (latchOpa opa s).inbox = s.inbox := rfl
@[simp] theorem latchOpa_port (opa : Word) (s : State) : (latchOpa opa s).port = s.port := rfl
@[simp] theorem latchOpa_turns (opa : Word) (s : State) : (latchOpa opa s).turns = s.turns := rfl
@[simp] theorem latchOpa_draws (opa : Word) (s : State) : (latchOpa opa s).draws = s.draws := rfl
@[simp] theorem latchOpa_events (opa : Word) (s : State) : (latchOpa opa s).events = s.events := rfl

/-! ## latchOpb -/

@[simp] theorem latchOpb_cfg (opb : Word) (s : State) : (latchOpb opb s).cfg = s.cfg := rfl
@[simp] theorem latchOpb_phase (opb : Word) (s : State) : (latchOpb opb s).phase = s.phase := rfl
@[simp] theorem latchOpb_resCode (opb : Word) (s : State) : (latchOpb opb s).resCode = s.resCode := rfl
@[simp] theorem latchOpb_resData (opb : Word) (s : State) : (latchOpb opb s).resData = s.resData := rfl
@[simp] theorem latchOpb_resInfo (opb : Word) (s : State) : (latchOpb opb s).resInfo = s.resInfo := rfl
@[simp] theorem latchOpb_lat (opb : Word) (s : State) : (latchOpb opb s).lat = { s.lat with val := opb } := rfl
@[simp] theorem latchOpb_mem (opb : Word) (s : State) : (latchOpb opb s).mem = s.mem := rfl
@[simp] theorem latchOpb_answers (opb : Word) (s : State) : (latchOpb opb s).answers = s.answers := rfl
@[simp] theorem latchOpb_inbox (opb : Word) (s : State) : (latchOpb opb s).inbox = s.inbox := rfl
@[simp] theorem latchOpb_port (opb : Word) (s : State) : (latchOpb opb s).port = s.port := rfl
@[simp] theorem latchOpb_turns (opb : Word) (s : State) : (latchOpb opb s).turns = s.turns := rfl
@[simp] theorem latchOpb_draws (opb : Word) (s : State) : (latchOpb opb s).draws = s.draws := rfl
@[simp] theorem latchOpb_events (opb : Word) (s : State) : (latchOpb opb s).events = s.events := rfl

/-! ## loadGpio -/

@[simp] theorem loadGpio_cfg (base : Word) (w : BitVec 6) (v : Word) (s : State) : (loadGpio base w v s).cfg = s.cfg := rfl
@[simp] theorem loadGpio_phase (base : Word) (w : BitVec 6) (v : Word) (s : State) : (loadGpio base w v s).phase = s.phase := rfl
@[simp] theorem loadGpio_resCode (base : Word) (w : BitVec 6) (v : Word) (s : State) : (loadGpio base w v s).resCode = s.resCode := rfl
@[simp] theorem loadGpio_resData (base : Word) (w : BitVec 6) (v : Word) (s : State) : (loadGpio base w v s).resData = s.resData := rfl
@[simp] theorem loadGpio_resInfo (base : Word) (w : BitVec 6) (v : Word) (s : State) : (loadGpio base w v s).resInfo = s.resInfo := rfl
@[simp] theorem loadGpio_lat (base : Word) (w : BitVec 6) (v : Word) (s : State) : (loadGpio base w v s).lat = { s.lat with base := base, w := w, maxp := gpioMaxPin, val := v } := rfl
@[simp] theorem loadGpio_mem (base : Word) (w : BitVec 6) (v : Word) (s : State) : (loadGpio base w v s).mem = s.mem := rfl
@[simp] theorem loadGpio_answers (base : Word) (w : BitVec 6) (v : Word) (s : State) : (loadGpio base w v s).answers = s.answers := rfl
@[simp] theorem loadGpio_inbox (base : Word) (w : BitVec 6) (v : Word) (s : State) : (loadGpio base w v s).inbox = s.inbox := rfl
@[simp] theorem loadGpio_port (base : Word) (w : BitVec 6) (v : Word) (s : State) : (loadGpio base w v s).port = s.port := rfl
@[simp] theorem loadGpio_turns (base : Word) (w : BitVec 6) (v : Word) (s : State) : (loadGpio base w v s).turns = s.turns := rfl
@[simp] theorem loadGpio_draws (base : Word) (w : BitVec 6) (v : Word) (s : State) : (loadGpio base w v s).draws = s.draws := rfl
@[simp] theorem loadGpio_events (base : Word) (w : BitVec 6) (v : Word) (s : State) : (loadGpio base w v s).events = s.events := rfl

/-! ## latchStage -/

@[simp] theorem latchStage_cfg (v : BitVec 1) (s : State) : (latchStage v s).cfg = s.cfg := rfl
@[simp] theorem latchStage_phase (v : BitVec 1) (s : State) : (latchStage v s).phase = s.phase := rfl
@[simp] theorem latchStage_resCode (v : BitVec 1) (s : State) : (latchStage v s).resCode = s.resCode := rfl
@[simp] theorem latchStage_resData (v : BitVec 1) (s : State) : (latchStage v s).resData = s.resData := rfl
@[simp] theorem latchStage_resInfo (v : BitVec 1) (s : State) : (latchStage v s).resInfo = s.resInfo := rfl
@[simp] theorem latchStage_lat (v : BitVec 1) (s : State) : (latchStage v s).lat = { s.lat with stage := v } := rfl
@[simp] theorem latchStage_mem (v : BitVec 1) (s : State) : (latchStage v s).mem = s.mem := rfl
@[simp] theorem latchStage_answers (v : BitVec 1) (s : State) : (latchStage v s).answers = s.answers := rfl
@[simp] theorem latchStage_inbox (v : BitVec 1) (s : State) : (latchStage v s).inbox = s.inbox := rfl
@[simp] theorem latchStage_port (v : BitVec 1) (s : State) : (latchStage v s).port = s.port := rfl
@[simp] theorem latchStage_turns (v : BitVec 1) (s : State) : (latchStage v s).turns = s.turns := rfl
@[simp] theorem latchStage_draws (v : BitVec 1) (s : State) : (latchStage v s).draws = s.draws := rfl
@[simp] theorem latchStage_events (v : BitVec 1) (s : State) : (latchStage v s).events = s.events := rfl

/-! ## startAccess -/

@[simp] theorem startAccess_cfg (s : State) : (startAccess s).cfg = s.cfg := rfl
@[simp] theorem startAccess_phase (s : State) : (startAccess s).phase = .fpRead := rfl
@[simp] theorem startAccess_resCode (s : State) : (startAccess s).resCode = s.resCode := rfl
@[simp] theorem startAccess_resData (s : State) : (startAccess s).resData = s.resData := rfl
@[simp] theorem startAccess_resInfo (s : State) : (startAccess s).resInfo = s.resInfo := rfl
@[simp] theorem startAccess_lat (s : State) : (startAccess s).lat = { s.lat with
      addr := BitVec.ofNat 33 (fieldAddr s.lat.pin.toNat s.lat.w.toNat s.lat.base.toNat),
      shift := BitVec.ofNat 5 (fieldShift s.lat.pin.toNat s.lat.w.toNat),
      fmask := BitVec.ofNat 32 (fieldMask s.lat.w.toNat) } := rfl
@[simp] theorem startAccess_mem (s : State) : (startAccess s).mem = s.mem := rfl
@[simp] theorem startAccess_answers (s : State) : (startAccess s).answers = s.answers := rfl
@[simp] theorem startAccess_inbox (s : State) : (startAccess s).inbox = s.inbox := rfl
@[simp] theorem startAccess_port (s : State) : (startAccess s).port = s.port := rfl
@[simp] theorem startAccess_turns (s : State) : (startAccess s).turns = s.turns := rfl
@[simp] theorem startAccess_draws (s : State) : (startAccess s).draws = s.draws := rfl
@[simp] theorem startAccess_events (s : State) : (startAccess s).events = s.events := rfl

/-! ## fixAnswer -/

@[simp] theorem fixAnswer_cfg (a : Nat) (v : Word) (s : State) : (fixAnswer a v s).cfg = s.cfg := rfl
@[simp] theorem fixAnswer_phase (a : Nat) (v : Word) (s : State) : (fixAnswer a v s).phase = s.phase := rfl
@[simp] theorem fixAnswer_resCode (a : Nat) (v : Word) (s : State) : (fixAnswer a v s).resCode = s.resCode := rfl
@[simp] theorem fixAnswer_resData (a : Nat) (v : Word) (s : State) : (fixAnswer a v s).resData = s.resData := rfl
@[simp] theorem fixAnswer_resInfo (a : Nat) (v : Word) (s : State) : (fixAnswer a v s).resInfo = s.resInfo := rfl
@[simp] theorem fixAnswer_lat (a : Nat) (v : Word) (s : State) : (fixAnswer a v s).lat = s.lat := rfl
@[simp] theorem fixAnswer_mem (a : Nat) (v : Word) (s : State) : (fixAnswer a v s).mem = s.mem := rfl
@[simp] theorem fixAnswer_answers (a : Nat) (v : Word) (s : State) : (fixAnswer a v s).answers = s.answers ++ [(a, v)] := rfl
@[simp] theorem fixAnswer_inbox (a : Nat) (v : Word) (s : State) : (fixAnswer a v s).inbox = s.inbox := rfl
@[simp] theorem fixAnswer_port (a : Nat) (v : Word) (s : State) : (fixAnswer a v s).port = s.port := rfl
@[simp] theorem fixAnswer_turns (a : Nat) (v : Word) (s : State) : (fixAnswer a v s).turns = s.turns := rfl
@[simp] theorem fixAnswer_draws (a : Nat) (v : Word) (s : State) : (fixAnswer a v s).draws = s.draws := rfl
@[simp] theorem fixAnswer_events (a : Nat) (v : Word) (s : State) : (fixAnswer a v s).events = s.events := rfl

/-! ## absorbDoorbell -/

@[simp] theorem absorbDoorbell_cfg (s : State) : (absorbDoorbell s).cfg = s.cfg := rfl
@[simp] theorem absorbDoorbell_phase (s : State) : (absorbDoorbell s).phase = s.phase := rfl
@[simp] theorem absorbDoorbell_resCode (s : State) : (absorbDoorbell s).resCode = s.resCode := rfl
@[simp] theorem absorbDoorbell_resData (s : State) : (absorbDoorbell s).resData = s.resData := rfl
@[simp] theorem absorbDoorbell_resInfo (s : State) : (absorbDoorbell s).resInfo = s.resInfo := rfl
@[simp] theorem absorbDoorbell_lat (s : State) : (absorbDoorbell s).lat = s.lat := rfl
@[simp] theorem absorbDoorbell_mem (s : State) : (absorbDoorbell s).mem = s.mem := rfl
@[simp] theorem absorbDoorbell_answers (s : State) : (absorbDoorbell s).answers = s.answers := rfl
@[simp] theorem absorbDoorbell_inbox (s : State) : (absorbDoorbell s).inbox = s.inbox.tail := rfl
@[simp] theorem absorbDoorbell_port (s : State) : (absorbDoorbell s).port = s.port := rfl
@[simp] theorem absorbDoorbell_turns (s : State) : (absorbDoorbell s).turns = s.turns := rfl
@[simp] theorem absorbDoorbell_draws (s : State) : (absorbDoorbell s).draws = s.draws := rfl
@[simp] theorem absorbDoorbell_events (s : State) : (absorbDoorbell s).events = s.events := rfl

/-! ## applyReset -/

@[simp] theorem applyReset_cfg (s : State) : (applyReset s).cfg = s.cfg := rfl
@[simp] theorem applyReset_phase (s : State) : (applyReset s).phase = .idle := rfl
@[simp] theorem applyReset_resCode (s : State) : (applyReset s).resCode = .noResult := rfl
@[simp] theorem applyReset_resData (s : State) : (applyReset s).resData = 0 := rfl
@[simp] theorem applyReset_resInfo (s : State) : (applyReset s).resInfo = 0 := rfl
@[simp] theorem applyReset_lat (s : State) : (applyReset s).lat = unspecifiedLatches s.draws := rfl
@[simp] theorem applyReset_mem (s : State) : (applyReset s).mem = s.mem := rfl
@[simp] theorem applyReset_answers (s : State) : (applyReset s).answers = s.answers := rfl
@[simp] theorem applyReset_inbox (s : State) : (applyReset s).inbox = s.inbox := rfl
@[simp] theorem applyReset_port (s : State) : (applyReset s).port = s.port := rfl
@[simp] theorem applyReset_turns (s : State) : (applyReset s).turns = s.turns := rfl
@[simp] theorem applyReset_draws (s : State) : (applyReset s).draws = s.draws + 16 := rfl
@[simp] theorem applyReset_events (s : State) : (applyReset s).events = s.events := rfl

/-! ## mboxIssue -/

@[simp] theorem mboxIssue_cfg (s : State) : (mboxIssue s).cfg = s.cfg := rfl
@[simp] theorem mboxIssue_phase (s : State) : (mboxIssue s).phase = .mbWaitWritable := rfl
@[simp] theorem mboxIssue_resCode (s : State) : (mboxIssue s).resCode = s.resCode := rfl
@[simp] theorem mboxIssue_resData (s : State) : (mboxIssue s).resData = s.resData := rfl
@[simp] theorem mboxIssue_resInfo (s : State) : (mboxIssue s).resInfo = s.resInfo := rfl
@[simp] theorem mboxIssue_lat (s : State) : (mboxIssue s).lat = { s.lat with db := doorbell s.cfg s.lat.ch } := rfl
@[simp] theorem mboxIssue_mem (s : State) : (mboxIssue s).mem = s.mem := rfl
@[simp] theorem mboxIssue_answers (s : State) : (mboxIssue s).answers = s.answers := rfl
@[simp] theorem mboxIssue_inbox (s : State) : (mboxIssue s).inbox = s.inbox := rfl
@[simp] theorem mboxIssue_port (s : State) : (mboxIssue s).port = s.port := rfl
@[simp] theorem mboxIssue_turns (s : State) : (mboxIssue s).turns = s.turns := rfl
@[simp] theorem mboxIssue_draws (s : State) : (mboxIssue s).draws = s.draws := rfl
@[simp] theorem mboxIssue_events (s : State) : (mboxIssue s).events = s.events := rfl

/-! ## setLat of setLat -/

@[simp] theorem setLat_setLat (l l' : Latches) (s : State) : setLat l (setLat l' s) = setLat l s := rfl
@[simp] theorem setPhase_setPhase (p p' : Phase) (s : State) : setPhase p (setPhase p' s) = setPhase p s := rfl
@[simp] theorem setLat_lat_self (s : State) : setLat s.lat s = s := rfl

end Sys2Proof.Machine
end

