-- ==== Sys2Proof/Laws/Ops.lean ====
section
/-! SUPPORT. What each shared operation can do, said once: the accesses, the checks, the ends of a command, and one
inversion lemma for the block's turn and for a step. -/

namespace Sys2Proof.Machine

/-! ## The checks of R62 -/

theorem mmioFault_eq_none {c : Config} {a : Nat} :
    mmioFault c a = none ↔ a % 4 = 0 ∧ inWindow c a = true := by
  unfold mmioFault
  split_ifs <;> simp_all

theorem mmioFault_of_misaligned {c : Config} {a : Nat} (h : a % 4 ≠ 0) : mmioFault c a = some .fatalAlign := by
  simp [mmioFault, h]

theorem mmioFault_of_outside {c : Config} {a : Nat} (h : a % 4 = 0) (hw : inWindow c a = false) :
    mmioFault c a = some .fatalWindow := by
  simp [mmioFault, h, hw]

theorem mmioFault_isFatal {c : Config} {a : Nat} {code : ResCode} (h : mmioFault c a = some code) :
    code.isFatal = true := by
  unfold mmioFault at h
  split_ifs at h <;> cases h <;> rfl

theorem inWindow_lt {c : Config} {a : Nat} (h : inWindow c a = true) : a < 2 ^ 32 := by
  have := c.peripheralEnd.isLt
  simp [inWindow] at h
  omega

/-! ## Draws and reads -/

@[simp] theorem afterDraw_cfg (a : Nat) (s : State) : (afterDraw a s).cfg = s.cfg := by
  unfold afterDraw; split <;> rfl
@[simp] theorem afterDraw_phase (a : Nat) (s : State) : (afterDraw a s).phase = s.phase := by
  unfold afterDraw; split <;> rfl
@[simp] theorem afterDraw_resCode (a : Nat) (s : State) : (afterDraw a s).resCode = s.resCode := by
  unfold afterDraw; split <;> rfl
@[simp] theorem afterDraw_resData (a : Nat) (s : State) : (afterDraw a s).resData = s.resData := by
  unfold afterDraw; split <;> rfl
@[simp] theorem afterDraw_resInfo (a : Nat) (s : State) : (afterDraw a s).resInfo = s.resInfo := by
  unfold afterDraw; split <;> rfl
@[simp] theorem afterDraw_lat (a : Nat) (s : State) : (afterDraw a s).lat = s.lat := by
  unfold afterDraw; split <;> rfl
@[simp] theorem afterDraw_mem (a : Nat) (s : State) : (afterDraw a s).mem = s.mem := by
  unfold afterDraw; split <;> rfl
@[simp] theorem afterDraw_inbox (a : Nat) (s : State) : (afterDraw a s).inbox = s.inbox := by
  unfold afterDraw; split <;> rfl
@[simp] theorem afterDraw_port (a : Nat) (s : State) : (afterDraw a s).port = s.port := by
  unfold afterDraw; split <;> rfl
@[simp] theorem afterDraw_turns (a : Nat) (s : State) : (afterDraw a s).turns = s.turns := by
  unfold afterDraw; split <;> rfl
@[simp] theorem afterDraw_events (a : Nat) (s : State) : (afterDraw a s).events = s.events := by
  unfold afterDraw; split <;> rfl

theorem readValue_of_stored {a : Nat} {s : State} {v : Word} (h : s.mem.wordAt a = some v) : readValue a s = v := by
  simp [readValue, h]

theorem readValue_of_unstored {a : Nat} {s : State} (h : s.mem.wordAt a = none) : readValue a s = drawAt a s := by
  simp [readValue, h]

theorem drawAt_of_pending {a : Nat} {s : State} {v : Word} (h : pendingAnswer s.answers a = some v) :
    drawAt a s = v := by
  simp [drawAt, h]

section
variable (who : Agent) (sp : Space) (a : Nat) (v : Word) (s : State)

@[simp] theorem afterRead_cfg : (afterRead who sp a s).cfg = s.cfg := by unfold afterRead; split <;> simp
@[simp] theorem afterRead_phase : (afterRead who sp a s).phase = s.phase := by unfold afterRead; split <;> simp
@[simp] theorem afterRead_resCode : (afterRead who sp a s).resCode = s.resCode := by unfold afterRead; split <;> simp
@[simp] theorem afterRead_resData : (afterRead who sp a s).resData = s.resData := by unfold afterRead; split <;> simp
@[simp] theorem afterRead_resInfo : (afterRead who sp a s).resInfo = s.resInfo := by unfold afterRead; split <;> simp
@[simp] theorem afterRead_lat : (afterRead who sp a s).lat = s.lat := by unfold afterRead; split <;> simp
@[simp] theorem afterRead_mem : (afterRead who sp a s).mem = s.mem := by unfold afterRead; split <;> simp
@[simp] theorem afterRead_inbox : (afterRead who sp a s).inbox = s.inbox := by unfold afterRead; split <;> simp
@[simp] theorem afterRead_port : (afterRead who sp a s).port = s.port := by unfold afterRead; split <;> simp
@[simp] theorem afterRead_turns : (afterRead who sp a s).turns = s.turns := by unfold afterRead; split <;> simp
@[simp] theorem afterRead_events :
    (afterRead who sp a s).events = ⟨who, .read, sp, a, readValue a s⟩ :: s.events := by
  unfold afterRead; split <;> simp

/-- A read changes nothing but the answers, the draws and the events. -/
theorem afterRead_eq : afterRead who sp a s =
    { s with answers := (afterRead who sp a s).answers, draws := (afterRead who sp a s).draws,
             events := ⟨who, .read, sp, a, readValue a s⟩ :: s.events } := by
  ext1 <;> simp

/-- A write changes nothing but memory, the inbox and the events. -/
theorem memWrite_eq : memWrite who sp a v s =
    { s with mem := (memWrite who sp a v s).mem, inbox := (memWrite who sp a v s).inbox,
             events := ⟨who, .write, sp, a, v⟩ :: s.events } := by
  unfold memWrite record handOver store
  split_ifs <;> rfl

/-! ## Writes -/

@[simp] theorem store_cfg : (store a v s).cfg = s.cfg := by unfold store; split <;> rfl
@[simp] theorem store_phase : (store a v s).phase = s.phase := by unfold store; split <;> rfl
@[simp] theorem store_resCode : (store a v s).resCode = s.resCode := by unfold store; split <;> rfl
@[simp] theorem store_resData : (store a v s).resData = s.resData := by unfold store; split <;> rfl
@[simp] theorem store_resInfo : (store a v s).resInfo = s.resInfo := by unfold store; split <;> rfl
@[simp] theorem store_lat : (store a v s).lat = s.lat := by unfold store; split <;> rfl
@[simp] theorem store_answers : (store a v s).answers = s.answers := by unfold store; split <;> rfl
@[simp] theorem store_inbox : (store a v s).inbox = s.inbox := by unfold store; split <;> rfl
@[simp] theorem store_port : (store a v s).port = s.port := by unfold store; split <;> rfl
@[simp] theorem store_turns : (store a v s).turns = s.turns := by unfold store; split <;> rfl
@[simp] theorem store_draws : (store a v s).draws = s.draws := by unfold store; split <;> rfl
@[simp] theorem store_events : (store a v s).events = s.events := by unfold store; split <;> rfl
theorem store_mem : (store a v s).mem = if storesAt a s then s.mem.setWord a v else s.mem := by
  unfold store; split <;> rfl

@[simp] theorem handOver_cfg : (handOver a v s).cfg = s.cfg := by unfold handOver; split <;> rfl
@[simp] theorem handOver_phase : (handOver a v s).phase = s.phase := by unfold handOver; split <;> rfl
@[simp] theorem handOver_resCode : (handOver a v s).resCode = s.resCode := by unfold handOver; split <;> rfl
@[simp] theorem handOver_resData : (handOver a v s).resData = s.resData := by unfold handOver; split <;> rfl
@[simp] theorem handOver_resInfo : (handOver a v s).resInfo = s.resInfo := by unfold handOver; split <;> rfl
@[simp] theorem handOver_lat : (handOver a v s).lat = s.lat := by unfold handOver; split <;> rfl
@[simp] theorem handOver_mem : (handOver a v s).mem = s.mem := by unfold handOver; split <;> rfl
@[simp] theorem handOver_answers : (handOver a v s).answers = s.answers := by unfold handOver; split <;> rfl
@[simp] theorem handOver_port : (handOver a v s).port = s.port := by unfold handOver; split <;> rfl
@[simp] theorem handOver_turns : (handOver a v s).turns = s.turns := by unfold handOver; split <;> rfl
@[simp] theorem handOver_draws : (handOver a v s).draws = s.draws := by unfold handOver; split <;> rfl
@[simp] theorem handOver_events : (handOver a v s).events = s.events := by unfold handOver; split <;> rfl
theorem handOver_inbox :
    (handOver a v s).inbox = if a = s.cfg.mboxWriteAddr.toNat then s.inbox ++ [v] else s.inbox := by
  unfold handOver; split <;> rfl

@[simp] theorem memWrite_cfg : (memWrite who sp a v s).cfg = s.cfg := by simp [memWrite]
@[simp] theorem memWrite_phase : (memWrite who sp a v s).phase = s.phase := by simp [memWrite]
@[simp] theorem memWrite_resCode : (memWrite who sp a v s).resCode = s.resCode := by simp [memWrite]
@[simp] theorem memWrite_resData : (memWrite who sp a v s).resData = s.resData := by simp [memWrite]
@[simp] theorem memWrite_resInfo : (memWrite who sp a v s).resInfo = s.resInfo := by simp [memWrite]
@[simp] theorem memWrite_lat : (memWrite who sp a v s).lat = s.lat := by simp [memWrite]
@[simp] theorem memWrite_answers : (memWrite who sp a v s).answers = s.answers := by simp [memWrite]
@[simp] theorem memWrite_port : (memWrite who sp a v s).port = s.port := by simp [memWrite]
@[simp] theorem memWrite_turns : (memWrite who sp a v s).turns = s.turns := by simp [memWrite]
@[simp] theorem memWrite_draws : (memWrite who sp a v s).draws = s.draws := by simp [memWrite]
@[simp] theorem memWrite_events :
    (memWrite who sp a v s).events = ⟨who, .write, sp, a, v⟩ :: s.events := by simp [memWrite]
theorem memWrite_mem :
    (memWrite who sp a v s).mem = if storesAt a s then s.mem.setWord a v else s.mem := by
  simp [memWrite, store_mem]
theorem memWrite_inbox :
    (memWrite who sp a v s).inbox = if a = s.cfg.mboxWriteAddr.toNat then s.inbox ++ [v] else s.inbox := by
  simp [memWrite, handOver_inbox]

/-- A write leaves every byte outside its word as it was. -/
theorem memWrite_byteAt_outside {b : Nat} (h : b < a ∨ a + 4 ≤ b) :
    (memWrite who sp a v s).mem.byteAt b = s.mem.byteAt b := by
  rw [memWrite_mem]
  split
  · exact Memory.byteAt_setWord_outside _ _ h
  · rfl

/-- A write that memory keeps reads back as the value written. -/
theorem memWrite_wordAt_same (h : storesAt a s = true) : (memWrite who sp a v s).mem.wordAt a = some v := by
  rw [memWrite_mem, if_pos h, Memory.wordAt_setWord_same]

/-- A write inside the address space keeps memory canonical. -/
theorem memWrite_wf (ha : a + 3 < 2 ^ 32) (h : s.mem.wf = true) : (memWrite who sp a v s).mem.wf = true := by
  rw [memWrite_mem]
  split
  · exact Memory.setWord_wf _ ha h
  · exact h
end

/-! ## Checked accesses -/

theorem mmioRead_of_ok {a : Nat} {s : State} (k : Word → State → State) (h : mmioFault s.cfg a = none) :
    mmioRead a s k = k (readValue a s) (afterRead .ctrl .register a s) := by simp [mmioRead, h]

theorem mmioRead_of_fault {a : Nat} {s : State} {code : ResCode} (k : Word → State → State)
    (h : mmioFault s.cfg a = some code) : mmioRead a s k = raiseFatal code (trunc32 a) s := by simp [mmioRead, h]

theorem mmioWrite_of_ok {a : Nat} {v : Word} {s : State} (k : State → State) (h : mmioFault s.cfg a = none) :
    mmioWrite a v s k = k (memWrite .ctrl .register a v s) := by simp [mmioWrite, h]

theorem mmioWrite_of_fault {a : Nat} {v : Word} {s : State} {code : ResCode} (k : State → State)
    (h : mmioFault s.cfg a = some code) : mmioWrite a v s k = raiseFatal code (trunc32 a) s := by simp [mmioWrite, h]

/-- Everything a checked read can lead to. -/
theorem mmioRead_cases (a : Nat) (s : State) (k : Word → State → State) :
    (∃ code, mmioFault s.cfg a = some code ∧ mmioRead a s k = raiseFatal code (trunc32 a) s) ∨
    (mmioFault s.cfg a = none ∧ mmioRead a s k = k (readValue a s) (afterRead .ctrl .register a s)) := by
  cases h : mmioFault s.cfg a with
  | none => exact .inr ⟨rfl, mmioRead_of_ok k h⟩
  | some code => exact .inl ⟨code, rfl, mmioRead_of_fault k h⟩

/-- Everything a checked write can lead to. -/
theorem mmioWrite_cases (a : Nat) (v : Word) (s : State) (k : State → State) :
    (∃ code, mmioFault s.cfg a = some code ∧ mmioWrite a v s k = raiseFatal code (trunc32 a) s) ∨
    (mmioFault s.cfg a = none ∧ mmioWrite a v s k = k (memWrite .ctrl .register a v s)) := by
  cases h : mmioFault s.cfg a with
  | none => exact .inr ⟨rfl, mmioWrite_of_ok k h⟩
  | some code => exact .inl ⟨code, rfl, mmioWrite_of_fault k h⟩

/-! ## The issue parts -/

/-- The issue part of R124: a range error, or FP_READ with the geometry latched. -/
theorem packIssue_cases (s : State) :
    (rangeCheck s.lat.pin s.lat.val s.lat.w s.lat.maxp ≠ 0 ∧
      packIssue s = complete .errRange 0 (rangeCheck s.lat.pin s.lat.val s.lat.w s.lat.maxp) s) ∨
    (rangeCheck s.lat.pin s.lat.val s.lat.w s.lat.maxp = 0 ∧ packIssue s = startAccess s) := by
  unfold packIssue
  split_ifs with h
  · exact .inl ⟨h, rfl⟩
  · exact .inr ⟨not_not.1 h, rfl⟩

theorem unpackIssue_cases (s : State) :
    (pinBad s.lat.pin s.lat.maxp = true ∧ unpackIssue s = complete .errRange 0 1 s) ∨
    (pinBad s.lat.pin s.lat.maxp = false ∧ unpackIssue s = startAccess s) := by
  unfold unpackIssue
  split_ifs with h
  · exact .inl ⟨h, rfl⟩
  · exact .inr ⟨by simpa using h, rfl⟩

theorem bufferIssue_cases (s : State) :
    (s.cfg.bufWords ≤ s.lat.idx.toNat ∧ bufferIssue s = raiseFatal .fatalBufIndex s.lat.idx s) ∨
    (s.lat.idx.toNat < s.cfg.bufWords ∧ bufferIssue s = setPhase .bufAccess s) := by
  unfold bufferIssue
  split_ifs with h
  · exact .inl ⟨h, rfl⟩
  · exact .inr ⟨Nat.lt_of_not_le h, rfl⟩

theorem compositeIssue_cases (s : State) :
    (pinBad s.lat.pin gpioMaxPin = true ∧ compositeIssue s = raiseFatal .fatalComposite (compositeInfo 0 1) s) ∨
    (pinBad s.lat.pin gpioMaxPin = false ∧
      compositeIssue s = startAccess (loadGpio s.cfg.gppullBase pullWidth pullNone (latchStage 0 s))) := by
  unfold compositeIssue
  split_ifs with h
  · exact .inl ⟨h, rfl⟩
  · exact .inr ⟨by simpa using h, rfl⟩

/-- The range check passes exactly when the pin and the value do (R121). -/
theorem rangeCheck_eq_zero {pin : BitVec 8} {v : Word} {w : BitVec 6} {maxp : BitVec 8} :
    rangeCheck pin v w maxp = 0 ↔ pin.toNat ≤ maxp.toNat ∧ v.toNat ≤ fieldMask w.toNat := by
  unfold rangeCheck pinBad valueBad
  by_cases h1 : maxp.toNat < pin.toNat <;> by_cases h2 : fieldMask w.toNat < v.toNat <;>
    simp [h1, h2]
  all_goals omega

theorem pinBad_eq_false {pin maxp : BitVec 8} : pinBad pin maxp = false ↔ pin.toNat ≤ maxp.toNat := by
  simp [pinBad]

/-! ## Turns and steps -/

/-- The block's turn: an Issue in IDLE, else the controller's step. -/
theorem blockTurn_cases (s : State) :
    (∃ c cs, s.phase = .idle ∧ s.port = c :: cs ∧ blockTurn s = issue c { s with port := cs }) ∨
    ((s.phase ≠ .idle ∨ s.port = []) ∧ blockTurn s = ctrlStep s) := by
  unfold blockTurn
  split
  · rename_i c cs h1 h2
    exact .inl ⟨c, cs, h1, h2, rfl⟩
  · rename_i h
    refine .inr ⟨?_, rfl⟩
    by_cases hp : s.phase = .idle
    · cases hq : s.port with
      | nil => exact .inr rfl
      | cons c cs => exact absurd hq (h c cs hp)
    · exact .inl hp

/-- A step is refused exactly in an ill-formed configuration; otherwise it is the next turn. -/
theorem step_cases (s : State) :
    (configWellFormed s.cfg = false ∧ step s = .refused .illFormedConfiguration) ∨
    (configWellFormed s.cfg = true ∧ step s = nextTurn s) := by
  unfold step
  split_ifs with h
  · exact .inr ⟨h, rfl⟩
  · exact .inl ⟨by simpa using h, rfl⟩

end Sys2Proof.Machine
end

