-- ==== Sys2Proof/Laws/PerInstr.lean ====
section
/-! SUPPORT. The family RowOfTable: the CMD word of an encoded command is of its row of 30_encoding.md rule R93, by mask and
match, whatever its operands. -/

namespace Sys2Proof.Laws.RowOfTable

/-- The encoded CMD, masked as the command's row says, is the row's match. -/
def Statement (i : Instr) : Prop := (encode i).cmd &&& rowMask i = rowMatch i

/-- The bits of CMD that the fields OP, CH, W, MAXPIN and RSV decide, for the three masks of R93. -/
theorem cmdWord_mask_pin (op : BitVec 4) (pin : BitVec 8) :
    cmdWord op 0 pin 0 0 &&& 0xFFFF00FF = op.setWidth 32 := by
  unfold cmdWord
  ext i hi
  simp only [BitVec.getElem_and, BitVec.getElem_append, BitVec.getElem_setWidth]
  interval_cases i <;> simp

theorem cmdWord_mask_packer (op : BitVec 4) (pin : BitVec 8) (w : BitVec 6) (maxp : BitVec 8) :
    cmdWord op 0 pin w maxp &&& 0xC00000FF = op.setWidth 32 := by
  unfold cmdWord
  ext i hi
  simp only [BitVec.getElem_and, BitVec.getElem_append, BitVec.getElem_setWidth]
  interval_cases i <;> simp

theorem pack (pin : BitVec 8) (w : BitVec 6) (maxp : BitVec 8) (base value : Word) :
    Statement (.pack pin w maxp base value) := cmdWord_mask_packer opPack pin w maxp
theorem unpack (pin : BitVec 8) (w : BitVec 6) (maxp : BitVec 8) (base : Word) :
    Statement (.unpack pin w maxp base) := cmdWord_mask_packer opUnpack pin w maxp
theorem gpioSet (pin : BitVec 8) : Statement (.gpioSet pin) := cmdWord_mask_pin opGpioSet pin
theorem gpioClr (pin : BitVec 8) : Statement (.gpioClr pin) := cmdWord_mask_pin opGpioClr pin
theorem gpioPull (pin : BitVec 8) (state : Word) : Statement (.gpioPull pin state) := cmdWord_mask_pin opGpioPull pin
theorem gpioFsel (pin : BitVec 8) (function : Word) : Statement (.gpioFsel pin function) :=
  cmdWord_mask_pin opGpioFsel pin
theorem gpioAlt3 (pin : BitVec 8) : Statement (.gpioAlt3 pin) := cmdWord_mask_pin opGpioAlt3 pin
theorem gpioAlt5 (pin : BitVec 8) : Statement (.gpioAlt5 pin) := cmdWord_mask_pin opGpioAlt5 pin
theorem bufWr (index value : Word) : Statement (.bufWr index value) := by
  show cmdWord opBufWr 0 0 0 0 &&& 0xFFFFFFFF = 0x00000009
  decide
theorem bufRd (index : Word) : Statement (.bufRd index) := by
  show cmdWord opBufRd 0 0 0 0 &&& 0xFFFFFFFF = 0x0000000A
  decide
theorem bufAddr : Statement .bufAddr := by
  show cmdWord opBufAddr 0 0 0 0 &&& 0xFFFFFFFF = 0x0000000B
  decide
theorem mboxCallFb : Statement .mboxCallFb := by
  show cmdWord opMboxCall chFramebuffer 0 0 0 &&& 0xFFFFFFFF = 0x0000001C
  decide
theorem mboxCallProp : Statement .mboxCallProp := by
  show cmdWord opMboxCall chProperty 0 0 0 &&& 0xFFFFFFFF = 0x0000008C
  decide

end Sys2Proof.Laws.RowOfTable
end

