-- ==== Sys2Proof/Laws/Phases.lean ====
section
/-! SUPPORT. What each step of the controller does, said once, by phase; what a well-formed configuration gives the checked
accesses; and which fields a read depends on. -/

namespace Sys2Proof.Machine

/-! ## What a read depends on -/

/-- A read's value depends on memory, the answers and the draws only. -/
theorem readValue_congr {a : Nat} {s t : State} (hm : s.mem = t.mem) (ha : s.answers = t.answers)
    (hd : s.draws = t.draws) : readValue a s = readValue a t := by
  simp [readValue, drawAt, hm, ha, hd]

/-- So does what it leaves. -/
theorem afterRead_congr {who : Agent} {sp : Space} {a : Nat} {s t : State} (hm : s.mem = t.mem)
    (ha : s.answers = t.answers) (hd : s.draws = t.draws) :
    (afterRead who sp a s).answers = (afterRead who sp a t).answers ∧
      (afterRead who sp a s).draws = (afterRead who sp a t).draws := by
  unfold afterRead afterDraw
  rw [hm, ha]
  cases t.mem.wordAt a with
  | some v => exact ⟨ha, hd⟩
  | none =>
    cases pendingAnswer t.answers a with
    | some v => exact ⟨rfl, hd⟩
    | none => exact ⟨rfl, congrArg (· + 1) hd⟩

/-- A read of a word memory lists changes nothing but the events. -/
theorem afterRead_of_stored {who : Agent} {sp : Space} {a : Nat} {s : State} {v : Word} (h : s.mem.wordAt a = some v) :
    afterRead who sp a s = record ⟨who, .read, sp, a, v⟩ s := by
  simp [afterRead, readValue, h]

/-- A read the environment has an answer for consumes that answer. -/
theorem afterRead_of_pending {who : Agent} {sp : Space} {a : Nat} {s : State} {v : Word} (h : s.mem.wordAt a = none)
    (hp : pendingAnswer s.answers a = some v) :
    afterRead who sp a s =
      record ⟨who, .read, sp, a, v⟩ { s with answers := dropAnswer s.answers a } := by
  simp [afterRead, readValue, drawAt, afterDraw, h, hp]

/-! ## What a well-formed configuration gives (R67) -/

theorem mmioFault_of_alignedInWindow {c : Config} {a : Nat} (h : alignedInWindow c a = true) : mmioFault c a = none := by
  rw [mmioFault_eq_none]
  simpa [alignedInWindow] using h

theorem configWellFormed_mailbox {c : Config} (h : configWellFormed c = true) :
    mmioFault c c.mboxReadAddr.toNat = none ∧ mmioFault c c.mboxStatusAddr.toNat = none ∧
      mmioFault c c.mboxWriteAddr.toNat = none := by
  simp only [configWellFormed, Bool.and_eq_true] at h
  exact ⟨mmioFault_of_alignedInWindow h.1.1.1.1.2.1.1, mmioFault_of_alignedInWindow h.1.1.1.1.2.1.2,
    mmioFault_of_alignedInWindow h.1.1.1.1.2.2⟩

theorem configWellFormed_banks {c : Config} (h : configWellFormed c = true) :
    bankWellFormed c c.gpfselBase 0x14 = true ∧ bankWellFormed c c.gpsetBase 0x4 = true ∧
      bankWellFormed c c.gpclrBase 0x4 = true ∧ bankWellFormed c c.gppullBase 0xC = true := by
  simp only [configWellFormed, Bool.and_eq_true] at h
  exact ⟨h.1.1.1.2.1.1.1, h.1.1.1.2.1.1.2, h.1.1.1.2.1.2, h.1.1.1.2.2⟩

theorem configWellFormed_buffer {c : Config} (h : configWellFormed c = true) :
    c.bufAddr.toNat % 16 = 0 ∧ 2 ≤ c.bufWords ∧ c.bufAddr.toNat + 4 * c.bufWords ≤ 2 ^ 32 := by
  simp only [configWellFormed, Bool.and_eq_true, beq_iff_eq, decide_eq_true_eq] at h
  exact ⟨h.1.2.1.1, h.1.2.1.2, h.1.2.2⟩

theorem configWellFormed_fselAlt5 {c : Config} (h : configWellFormed c = true) : c.fselAlt5.toNat ≤ 7 := by
  simp only [configWellFormed, Bool.and_eq_true, decide_eq_true_eq] at h
  exact h.2

/-- Every register of a bank, up to its last, is admitted (R141, log 12). -/
theorem mmioFault_of_bank {c : Config} {base : Word} {last k : Nat} (h : bankWellFormed c base last = true)
    (hk : k * 4 ≤ last) : mmioFault c (base.toNat + k * 4) = none := by
  rw [mmioFault_eq_none]
  simp only [bankWellFormed, alignedInWindow, inWindow, Bool.and_eq_true, beq_iff_eq, decide_eq_true_eq] at h ⊢
  omega

/-! ## The geometry latches -/

/-- `L.addr` holds the exact address: 33 bits are enough (R24). -/
theorem addr_toNat (pin : BitVec 8) (w : Nat) (base : Word) :
    (BitVec.ofNat 33 (fieldAddr pin.toNat w base.toNat)).toNat = fieldAddr pin.toNat w base.toNat := by
  rw [BitVec.toNat_ofNat, Nat.mod_eq_of_lt]
  unfold fieldAddr regIndex
  have := pin.isLt
  have := base.isLt
  have : pin.toNat / fieldsPerReg w ≤ pin.toNat := Nat.div_le_self _ _
  omega

/-- A pin's field ends inside the fields of its register. -/
theorem fieldShift_add_le (p w : Nat) (h1 : 1 ≤ w) (h2 : w ≤ 32) : fieldShift p w + w ≤ 32 := by
  have h3 : 1 ≤ 32 / w := by
    rw [Nat.le_div_iff_mul_le (by omega)]
    omega
  have h4 : p % (32 / w) + 1 ≤ 32 / w := Nat.mod_lt _ (by omega)
  unfold fieldShift fieldsPerReg
  calc p % (32 / w) * w + w = (p % (32 / w) + 1) * w := by ring
    _ ≤ 32 / w * w := Nat.mul_le_mul_right _ h4
    _ ≤ 32 := Nat.div_mul_le_self _ _

/-- `L.shift` holds the exact shift: 5 bits are enough (R24). -/
theorem shift_toNat (p w : Nat) (h1 : 1 ≤ w) (h2 : w ≤ 32) :
    (BitVec.ofNat 5 (fieldShift p w)).toNat = fieldShift p w := by
  rw [BitVec.toNat_ofNat, Nat.mod_eq_of_lt]
  have := fieldShift_add_le p w h1 h2
  omega

/-- R141: in a well-formed configuration no register access of a GPIO command raises a fatal condition. -/
theorem mmioFault_of_gpio {s : State} (hc : configWellFormed s.cfg = true) (hf : FieldLatchesOk s)
    (ho : 3 ≤ s.lat.op.toNat) : mmioFault s.cfg s.lat.addr.toNat = none := by
  have hp : s.lat.pin.toNat ≤ 53 := by
    have h := hf.pin
    rw [hf.gpioMax ho] at h
    exact h
  obtain ⟨h1, h2, h3, h4⟩ := configWellFormed_banks hc
  have hb := hf.bank ho
  rw [hf.address, fieldAddr, regIndex, fieldsPerReg]
  unfold runningBank at hb
  split_ifs at hb <;> obtain ⟨e1, e2⟩ := Prod.mk.inj hb <;> rw [e1, e2] <;>
    refine mmioFault_of_bank ‹_› ?_ <;> simp [setClrWidth, pullWidth, fselWidth] <;> omega

/-! ## FP_READ and FP_WRITE (R125, R126) -/

theorem fpReadStep_of_fault {s : State} {code : ResCode} (h : mmioFault s.cfg s.lat.addr.toNat = some code) :
    fpReadStep s = raiseFatal code (trunc32 s.lat.addr.toNat) s := by
  simp [fpReadStep, mmioRead_of_fault _ h]

theorem fpReadStep_of_unpack {s : State} (h : mmioFault s.cfg s.lat.addr.toNat = none) (hu : s.lat.op = opUnpack) :
    fpReadStep s =
      complete .ok (extractField (readValue s.lat.addr.toNat s) s.lat.shift.toNat s.lat.fmask) (trunc32 s.lat.addr.toNat)
        (setLat { s.lat with old := readValue s.lat.addr.toNat s } (afterRead .ctrl .register s.lat.addr.toNat s)) := by
  simp [fpReadStep, mmioRead_of_ok _ h, hu]

theorem fpReadStep_of_other {s : State} (h : mmioFault s.cfg s.lat.addr.toNat = none) (hu : s.lat.op ≠ opUnpack) :
    fpReadStep s =
      setPhase .fpWrite (setLat
        { s.lat with old := readValue s.lat.addr.toNat s,
                     new := mergeField (readValue s.lat.addr.toNat s) s.lat.val s.lat.shift.toNat s.lat.fmask }
        (afterRead .ctrl .register s.lat.addr.toNat s)) := by
  simp [fpReadStep, mmioRead_of_ok _ h, hu]

theorem fpWriteStep_of_fault {s : State} {code : ResCode} (h : mmioFault s.cfg s.lat.addr.toNat = some code) :
    fpWriteStep s = raiseFatal code (trunc32 s.lat.addr.toNat) s := by
  simp [fpWriteStep, mmioWrite_of_fault _ h]

theorem fpWriteStep_of_stage0 {s : State} (h : mmioFault s.cfg s.lat.addr.toNat = none)
    (hc : (s.lat.op = opGpioAlt3 ∨ s.lat.op = opGpioAlt5) ∧ s.lat.stage = 0) :
    fpWriteStep s = beginStage1 (memWrite .ctrl .register s.lat.addr.toNat s.lat.new s) := by
  simp only [fpWriteStep, mmioWrite_of_ok _ h, memWrite_lat, if_pos hc]

theorem fpWriteStep_of_last {s : State} (h : mmioFault s.cfg s.lat.addr.toNat = none)
    (hc : ¬ ((s.lat.op = opGpioAlt3 ∨ s.lat.op = opGpioAlt5) ∧ s.lat.stage = 0)) :
    fpWriteStep s =
      complete .ok s.lat.new (trunc32 s.lat.addr.toNat) (memWrite .ctrl .register s.lat.addr.toNat s.lat.new s) := by
  simp only [fpWriteStep, mmioWrite_of_ok _ h, memWrite_lat, if_neg hc]

/-- "begin stage 1" (R145) fails its range check or starts the second read-modify-write. -/
theorem beginStage1_cases (s : State) :
    (rangeCheck s.lat.pin (compositeCode s) fselWidth gpioMaxPin ≠ 0 ∧
      beginStage1 s = raiseFatal .fatalComposite
        (compositeInfo 1 (rangeCheck s.lat.pin (compositeCode s) fselWidth gpioMaxPin))
        (loadGpio s.cfg.gpfselBase fselWidth (compositeCode s) (latchStage 1 s))) ∨
    (rangeCheck s.lat.pin (compositeCode s) fselWidth gpioMaxPin = 0 ∧
      beginStage1 s = startAccess (loadGpio s.cfg.gpfselBase fselWidth (compositeCode s) (latchStage 1 s))) := by
  unfold beginStage1
  split_ifs with h
  · exact .inl ⟨h, rfl⟩
  · exact .inr ⟨by simpa using h, rfl⟩

/-! ## BUF_ACCESS (R161, R162) -/

theorem bufAccessStep_of_write {s : State} (h : s.lat.op = opBufWr) :
    bufAccessStep s =
      complete .ok s.lat.val s.lat.idx
        (memWrite .ctrl .buffer (bufWordAddr s.cfg s.lat.idx.toNat) s.lat.val s) := by
  simp [bufAccessStep, bufWrite, h]

theorem bufAccessStep_of_read {s : State} (h : s.lat.op ≠ opBufWr) :
    bufAccessStep s =
      complete .ok (readValue (bufWordAddr s.cfg s.lat.idx.toNat) s) s.lat.idx
        (afterRead .ctrl .buffer (bufWordAddr s.cfg s.lat.idx.toNat) s) := by
  simp [bufAccessStep, bufRead, h]

/-! ## A step of the controller, by phase -/

section
variable {s : State}
theorem ctrlStep_of_idle (h : s.phase = .idle) : ctrlStep s = .next s := by simp [ctrlStep, h]
theorem ctrlStep_of_fpRead (h : s.phase = .fpRead) : ctrlStep s = .next (fpReadStep s) := by simp [ctrlStep, h]
theorem ctrlStep_of_fpWrite (h : s.phase = .fpWrite) : ctrlStep s = .next (fpWriteStep s) := by simp [ctrlStep, h]
theorem ctrlStep_of_bufAccess (h : s.phase = .bufAccess) : ctrlStep s = .next (bufAccessStep s) := by simp [ctrlStep, h]
theorem ctrlStep_of_waitWritable (h : s.phase = .mbWaitWritable) : ctrlStep s = .next (waitWritableStep s) := by
  simp [ctrlStep, h]
theorem ctrlStep_of_publish (h : s.phase = .mbPublish) : ctrlStep s = .next (publishStep s) := by simp [ctrlStep, h]
theorem ctrlStep_of_waitReadable (h : s.phase = .mbWaitReadable) : ctrlStep s = .next (waitReadableStep s) := by
  simp [ctrlStep, h]
theorem ctrlStep_of_checkEcho (h : s.phase = .mbCheckEcho) : ctrlStep s = .next (checkEchoStep s) := by
  simp [ctrlStep, h]
theorem ctrlStep_of_checkResponse (h : s.phase = .mbCheckResponse) : ctrlStep s = .next (checkResponseStep s) := by
  simp [ctrlStep, h]
theorem ctrlStep_of_faulted (h : s.phase = .faulted) : ctrlStep s = .fault (haltFault s) := by simp [ctrlStep, h]
end

/-- The controller's step answers a next state in every phase but FAULTED. -/
theorem ctrlStep_next {s : State} (h : s.phase ≠ .faulted) : ∃ t, ctrlStep s = .next t := by
  unfold ctrlStep
  cases hp : s.phase <;> first | exact absurd hp h | exact ⟨_, rfl⟩

/-! ## What a step of the controller can do -/

/-- What the accesses of a controller step leave: nothing touched, one read, or one write, with the phases and the checks
under which each is made. -/
inductive CtrlAccess (s t : State) : Prop where
  | none (events : t.events = s.events) (mem : t.mem = s.mem) (inbox : t.inbox = s.inbox)
  | read (sp : Space) (a : Nat) (events : t.events = ⟨.ctrl, .read, sp, a, readValue a s⟩ :: s.events)
      (mem : t.mem = s.mem) (inbox : t.inbox = s.inbox)
      (where_ : sp = .register ∧ mmioFault s.cfg a = Option.none ∨
        sp = .buffer ∧ (s.phase = .bufAccess ∨ s.phase = .mbCheckResponse ∧ a = bufWordAddr s.cfg 1))
  | write (sp : Space) (a : Nat) (v : Word) (events : t.events = ⟨.ctrl, .write, sp, a, v⟩ :: s.events)
      (mem : t.mem = (memWrite .ctrl sp a v s).mem) (inbox : t.inbox = (memWrite .ctrl sp a v s).inbox)
      (where_ : sp = .register ∧ mmioFault s.cfg a = Option.none ∧ (s.phase = .fpWrite ∨ s.phase = .mbPublish) ∨
        sp = .buffer ∧ s.phase = .bufAccess ∧ s.lat.op = opBufWr ∧ a = bufWordAddr s.cfg s.lat.idx.toNat)

theorem fpReadStep_access (s : State) : CtrlAccess s (fpReadStep s) := by
  cases hm : mmioFault s.cfg s.lat.addr.toNat with
  | some code => rw [fpReadStep_of_fault hm]; exact .none rfl rfl rfl
  | none =>
    by_cases hu : s.lat.op = opUnpack
    · rw [fpReadStep_of_unpack hm hu]
      exact .read .register s.lat.addr.toNat (by simp) (by simp) (by simp) (.inl ⟨rfl, hm⟩)
    · rw [fpReadStep_of_other hm hu]
      exact .read .register s.lat.addr.toNat (by simp) (by simp) (by simp) (.inl ⟨rfl, hm⟩)

theorem fpWriteStep_access {s : State} (hp : s.phase = .fpWrite) : CtrlAccess s (fpWriteStep s) := by
  cases hm : mmioFault s.cfg s.lat.addr.toNat with
  | some code => rw [fpWriteStep_of_fault hm]; exact .none rfl rfl rfl
  | none =>
    by_cases hc : (s.lat.op = opGpioAlt3 ∨ s.lat.op = opGpioAlt5) ∧ s.lat.stage = 0
    · rw [fpWriteStep_of_stage0 hm hc]
      rcases beginStage1_cases (memWrite .ctrl .register s.lat.addr.toNat s.lat.new s) with ⟨_, e⟩ | ⟨_, e⟩ <;> rw [e] <;>
        exact .write .register s.lat.addr.toNat s.lat.new (by simp) (by simp) (by simp) (.inl ⟨rfl, hm, .inl hp⟩)
    · rw [fpWriteStep_of_last hm hc]
      exact .write .register s.lat.addr.toNat s.lat.new (by simp) (by simp) (by simp) (.inl ⟨rfl, hm, .inl hp⟩)

theorem bufAccessStep_access {s : State} (hp : s.phase = .bufAccess) : CtrlAccess s (bufAccessStep s) := by
  by_cases h : s.lat.op = opBufWr
  · rw [bufAccessStep_of_write h]
    exact .write .buffer (bufWordAddr s.cfg s.lat.idx.toNat) s.lat.val (by simp) (by simp) (by simp) (.inr ⟨rfl, hp, h, rfl⟩)
  · rw [bufAccessStep_of_read h]
    exact .read .buffer (bufWordAddr s.cfg s.lat.idx.toNat) (by simp) (by simp) (by simp) (.inr ⟨rfl, .inl hp⟩)

theorem waitWritableStep_access (s : State) : CtrlAccess s (waitWritableStep s) := by
  cases hm : mmioFault s.cfg s.cfg.mboxStatusAddr.toNat with
  | some code => rw [waitWritableStep, mmioRead_of_fault _ hm]; exact .none rfl rfl rfl
  | none =>
    rw [waitWritableStep, mmioRead_of_ok _ hm]
    split_ifs <;>
      exact .read .register s.cfg.mboxStatusAddr.toNat (by simp) (by simp) (by simp) (.inl ⟨rfl, hm⟩)

theorem publishStep_access {s : State} (hp : s.phase = .mbPublish) : CtrlAccess s (publishStep s) := by
  cases hm : mmioFault s.cfg s.cfg.mboxWriteAddr.toNat with
  | some code => rw [publishStep, mmioWrite_of_fault _ hm]; exact .none rfl rfl rfl
  | none =>
    rw [publishStep, mmioWrite_of_ok _ hm]
    exact .write .register s.cfg.mboxWriteAddr.toNat s.lat.db (by simp) (by simp) (by simp) (.inl ⟨rfl, hm, .inr hp⟩)

theorem waitReadableStep_access (s : State) : CtrlAccess s (waitReadableStep s) := by
  cases hm : mmioFault s.cfg s.cfg.mboxStatusAddr.toNat with
  | some code => rw [waitReadableStep, mmioRead_of_fault _ hm]; exact .none rfl rfl rfl
  | none =>
    rw [waitReadableStep, mmioRead_of_ok _ hm]
    split_ifs <;>
      exact .read .register s.cfg.mboxStatusAddr.toNat (by simp) (by simp) (by simp) (.inl ⟨rfl, hm⟩)

theorem checkEchoStep_access (s : State) : CtrlAccess s (checkEchoStep s) := by
  cases hm : mmioFault s.cfg s.cfg.mboxReadAddr.toNat with
  | some code => rw [checkEchoStep, mmioRead_of_fault _ hm]; exact .none rfl rfl rfl
  | none =>
    rw [checkEchoStep, mmioRead_of_ok _ hm]
    split_ifs <;>
      exact .read .register s.cfg.mboxReadAddr.toNat (by simp) (by simp) (by simp) (.inl ⟨rfl, hm⟩)

theorem checkResponseStep_access {s : State} (hp : s.phase = .mbCheckResponse) : CtrlAccess s (checkResponseStep s) := by
  rw [checkResponseStep, bufRead]
  split_ifs <;>
    exact .read .buffer (bufWordAddr s.cfg 1) (by simp) (by simp) (by simp) (.inr ⟨rfl, .inr ⟨hp, rfl⟩⟩)

/-- The accesses of a controller step. -/
theorem ctrlStep_access {s t : State} (h : ctrlStep s = .next t) : CtrlAccess s t := by
  cases hp : s.phase with
  | idle => rw [ctrlStep_of_idle hp] at h; cases h; exact .none rfl rfl rfl
  | fpRead => rw [ctrlStep_of_fpRead hp] at h; cases h; exact fpReadStep_access s
  | fpWrite => rw [ctrlStep_of_fpWrite hp] at h; cases h; exact fpWriteStep_access hp
  | bufAccess => rw [ctrlStep_of_bufAccess hp] at h; cases h; exact bufAccessStep_access hp
  | mbWaitWritable => rw [ctrlStep_of_waitWritable hp] at h; cases h; exact waitWritableStep_access s
  | mbPublish => rw [ctrlStep_of_publish hp] at h; cases h; exact publishStep_access hp
  | mbWaitReadable => rw [ctrlStep_of_waitReadable hp] at h; cases h; exact waitReadableStep_access s
  | mbCheckEcho => rw [ctrlStep_of_checkEcho hp] at h; cases h; exact checkEchoStep_access s
  | mbCheckResponse => rw [ctrlStep_of_checkResponse hp] at h; cases h; exact checkResponseStep_access hp
  | faulted => rw [ctrlStep_of_faulted hp] at h; cases h

/-- A controller step leaves the configuration, the queue of commands and the schedule alone. -/
theorem ctrlStep_keeps {s t : State} (h : ctrlStep s = .next t) :
    t.cfg = s.cfg ∧ t.port = s.port ∧ t.turns = s.turns := by
  unfold ctrlStep at h
  cases hp : s.phase <;> rw [hp] at h <;> cases h <;>
    simp only [fpReadStep, fpWriteStep, bufAccessStep, waitWritableStep, publishStep, waitReadableStep, checkEchoStep,
      checkResponseStep, mmioRead, mmioWrite, bufRead, bufWrite, beginStage1] <;>
    repeat' (first | split | simp)

/-! ## The Issue steps -/

/-- An Issue step leaves everything but the phase, the result and the latches alone. -/
theorem exec_keeps {i : Instr} {s t : State} (h : exec i s = .next t) :
    t.cfg = s.cfg ∧ t.mem = s.mem ∧ t.answers = s.answers ∧ t.inbox = s.inbox ∧ t.port = s.port ∧ t.turns = s.turns ∧
      t.draws = s.draws ∧ t.events = s.events := by
  cases i <;>
    simp only [exec, execPack, execUnpack, execGpioSet, execGpioClr, execGpioPull, execGpioFsel, execGpioAlt3,
      execGpioAlt5, execBufWr, execBufRd, execBufAddr, execMboxCallFb, execMboxCallProp, packIssue, unpackIssue,
      compositeIssue, bufferIssue] at h <;>
    repeat' (first | split at h | (cases h; simp))

/-- A step by the turn it takes. -/
theorem nextTurn_cases (s : State) :
    ((s.turns = [] ∨ ∃ ts, s.turns = .block :: ts) ∧ nextTurn s = blockTurn { s with turns := s.turns.tail }) ∨
    (∃ t ts, s.turns = t :: ts ∧ t ≠ .block ∧ nextTurn s = takeTurn t { s with turns := ts }) := by
  unfold nextTurn
  rcases hs : s.turns with _ | ⟨t, ts⟩
  · have e : ({ s with turns := [] } : State) = s := by rw [← hs]
    exact .inl ⟨.inl rfl, congrArg blockTurn e.symm⟩
  · by_cases ht : t = .block
    · subst ht
      exact .inl ⟨.inr ⟨ts, rfl⟩, rfl⟩
    · exact .inr ⟨t, ts, rfl, ht, rfl⟩

/-- Everything a step can be: an Issue of an illegal or of a legal command, the controller's step, or the move of another
agent. -/
inductive StepShape (s t : State) : Prop where
  | illegal (c : Command) (cs : List Command) (idle : s.phase = .idle) (waiting : s.port = c :: cs)
      (turn : s.turns = [] ∨ ∃ ts, s.turns = .block :: ts)
      (result : t = completeIllegal c.cmd { s with turns := s.turns.tail, port := cs })
  | issue (c : Command) (cs : List Command) (i : Instr) (idle : s.phase = .idle) (waiting : s.port = c :: cs)
      (turn : s.turns = [] ∨ ∃ ts, s.turns = .block :: ts) (decoded : decodeCommand c = .legal i)
      (result : exec i (latchOpb c.opb (latchOpa c.opa { s with turns := s.turns.tail, port := cs })) = .next t)
  | ctrl (turn : s.turns = [] ∨ ∃ ts, s.turns = .block :: ts)
      (result : ctrlStep { s with turns := s.turns.tail } = .next t)
  | answer (a : Nat) (v : Word) (ts : List Turn) (turn : s.turns = .answer a v :: ts)
      (result : t = fixAnswer a v { s with turns := ts })
  | absorb (ts : List Turn) (turn : s.turns = .absorb :: ts) (result : t = absorbDoorbell { s with turns := ts })
  | gpuWrite (i : Nat) (v : Word) (ts : List Turn) (turn : s.turns = .gpuWrite i v :: ts)
      (result : t = gpuWriteBuffer i v { s with turns := ts })
  | reset (ts : List Turn) (turn : s.turns = .reset :: ts) (result : t = applyReset { s with turns := ts })

/-- A step that answers a next state has a well-formed configuration and one of these shapes. -/
theorem step_shape {s t : State} (h : step s = .next t) : configWellFormed s.cfg = true ∧ StepShape s t := by
  rcases step_cases s with ⟨_, e⟩ | ⟨hc, e⟩ <;> rw [e] at h
  · cases h
  refine ⟨hc, ?_⟩
  rcases nextTurn_cases s with ⟨turn, e⟩ | ⟨tn, ts, turn, hn, e⟩ <;> rw [e] at h
  · rcases blockTurn_cases { s with turns := s.turns.tail } with ⟨c, cs, hp, hq, e⟩ | ⟨_, e⟩ <;> rw [e] at h
    · unfold issue at h
      split at h
      · exact .issue c cs _ hp hq turn ‹_› h
      · cases h
        exact .illegal c cs hp hq turn rfl
    · exact .ctrl turn h
  · cases tn with
    | block => exact absurd rfl hn
    | answer a v => cases h; exact .answer a v ts turn rfl
    | absorb => cases h; exact .absorb ts turn rfl
    | gpuWrite i v => cases h; exact .gpuWrite i v ts turn rfl
    | reset => cases h; exact .reset ts turn rfl

end Sys2Proof.Machine
end

