-- ==== Sys2Proof/Tests/Slice0.lean ====
section
/-! SUPPORT. The model's own tests. Part 1 to 4 take their expected values from spec/95_test_vectors.md and the tables of
spec/30_encoding.md; part 5 shows, for every statement with hypotheses, a concrete case that meets them all. -/

namespace Sys2Proof.Tests

open Sys2Proof.Machine Sys2Proof.Claims

/-! ## Helpers -/

/-- The machine after reset with memory listing one word and the environment's answers fixed. -/
def with1 (a : Nat) (v : Word) (answers : List (Nat × Word)) : State :=
  { State.reset with mem := Memory.setWord [] a v, answers := answers }

/-- The machine in a busy phase with latches. -/
def busyWith (p : Phase) (l : Latches) (s : State) : State := { s with phase := p, lat := l }

/-- A view of the next state of an outcome. -/
def view {α : Type} (f : State → α) : Result → Option α
  | .next s => some (f s)
  | .fault _ => none
  | .refused _ => none

/-- The fault of an outcome. -/
def faultOf : Result → Option Fault
  | .next _ => none
  | .fault f => some f
  | .refused _ => none

/-- Code, data, information and STATUS, as the vectors give them. -/
def result (s : State) : ResCode × Word × Word × Word := (s.resCode, s.resData, s.resInfo, s.status)

/-- Phase and geometry latches. -/
def geometry (s : State) : Phase × BitVec 33 × BitVec 5 × Word := (s.phase, s.lat.addr, s.lat.shift, s.lat.fmask)

/-- `n` steps of the machine, stopping where one answers no next state. -/
def stateAfter : Nat → State → State
  | 0, s => s
  | n + 1, s =>
    match step s with
    | .next t => stateAfter n t
    | .fault _ => s
    | .refused _ => s

/-! ## 1. Well-formedness: each check refuses -/

theorem test_width_0_is_ill_formed :
    (Instr.pack 9 0 53 0 0).wellFormed = false ∧ (Instr.unpack 9 0 53 0).wellFormed = false := by decide
theorem test_width_33_is_ill_formed :
    (Instr.pack 9 33 53 0 0).wellFormed = false ∧ (Instr.unpack 9 33 53 0).wellFormed = false := by decide
theorem test_width_limits_are_well_formed :
    (Instr.pack 9 1 53 0 0).wellFormed = true ∧ (Instr.unpack 9 32 53 0).wellFormed = true := by decide
theorem test_tcfg_is_well_formed : configWellFormed Config.tcfg = true := by decide
/-- One configuration for each condition of R67, and a bank that starts one word below the window (R141). -/
theorem test_ill_formed_configurations :
    ([{ Config.tcfg with peripheralEnd := 0xFDFFFFFC }, { Config.tcfg with peripheralBase := 0xFE000002 },
      { Config.tcfg with peripheralEnd := 0xFEFFFFFE }, { Config.tcfg with mboxReadAddr := 0xFE00B882 },
      { Config.tcfg with mboxStatusAddr := 0xFF000000 }, { Config.tcfg with mboxWriteAddr := 0x1000 },
      { Config.tcfg with gpfselBase := 0xFE200001 }, { Config.tcfg with gpsetBase := 0xFEFFFFFC },
      { Config.tcfg with gpclrBase := 0x1000 }, { Config.tcfg with gppullBase := 0xFEFFFFF4 },
      { Config.tcfg with mboxFullMask := 0 }, { Config.tcfg with mboxEmptyMask := 0 },
      { Config.tcfg with bufAddr := 0x81008 }, { Config.tcfg with bufWords := 1 },
      { Config.tcfg with gpsetBase := 0xFDFFFFFC }, { Config.tcfg with gpclrBase := 0xFDFFFFFC },
      { Config.tcfg with bufAddr := 0xFFFFFFF0, bufWords := 5 }, { Config.tcfg with fselAlt5 := 8 }].map
        configWellFormed).all (· == false) = true := by decide

/-! ## 2. Decoding: words written out from the table of R93, and 95_test_vectors.md 2.3 -/

theorem test_decode_pack : decode 0x0D430901 0xFE200000 2 = .legal (.pack 9 3 53 0xFE200000 2) := by decide
theorem test_decode_unpack : decode 0x0D430902 0xFE200000 0 = .legal (.unpack 9 3 53 0xFE200000) := by decide
theorem test_decode_gpioSet : decode 0x00000E03 0 0 = .legal (.gpioSet 14) := by decide
theorem test_decode_gpioClr : decode 0x00003504 0 0 = .legal (.gpioClr 53) := by decide
theorem test_decode_gpioPull : decode 0x00000F05 0 3 = .legal (.gpioPull 15 3) := by decide
theorem test_decode_gpioFsel : decode 0x00003606 0 7 = .legal (.gpioFsel 54 7) := by decide
theorem test_decode_gpioAlt3 : decode 0x00000007 0 0 = .legal (.gpioAlt3 0) := by decide
theorem test_decode_gpioAlt5 : decode 0x0000FF08 0 0 = .legal (.gpioAlt5 255) := by decide
theorem test_decode_bufWr : decode 0x00000009 0x23 7 = .legal (.bufWr 35 7) := by decide
theorem test_decode_bufRd : decode 0x0000000A 0xFFFFFFFF 0 = .legal (.bufRd 0xFFFFFFFF) := by decide
theorem test_decode_bufAddr : decode 0x0000000B 0 0 = .legal .bufAddr := by decide
theorem test_decode_mboxCallFb : decode 0x0000001C 0 0 = .legal .mboxCallFb := by decide
theorem test_decode_mboxCallProp : decode 0x0000008C 0 0 = .legal .mboxCallProp := by decide
/-- The illegal rows of 2.3. -/
theorem test_decode_illegal :
    ([0x00000000, 0x0000000D, 0x0000000E, 0x0000000F, 0x0000003F, 0x4D430901, 0x8D430901, 0x00000001, 0x00210001,
      0x003F0003, 0x00000013, 0x00010003, 0x00000109, 0x0000001B, 0xC000000B, 0x0000000C, 0x0000002C, 0x000000FC,
      0x0000011C].map fun c : Word => match decode c 1 1 with | .legal _ => false | .illegal _ => true).all id = true := by
  decide
theorem test_table_word : decodeTableWord 96 0x00000002_FE200000_0D430901 = some (.pack 9 3 53 0xFE200000 2) := by decide
theorem test_table_word_short : decodeTableWord 32 0x0000008C = some .mboxCallProp := by decide
theorem test_assemble_pack :
    assembleLine "PACK 9, 3, 53, 0xFE200000, 2" = some ⟨0x0D430901, 0xFE200000, 2⟩ := by decide
theorem test_assemble_pseudo : assembleLine "MBOX.CALL.PROP" = some ⟨0x0000008C, 0, 0⟩ ∧
    assembleLine "GPIO.PULL.NONE 15" = some ⟨0x00000F05, 0, 0⟩ := by decide
theorem test_assemble_rejects : assembleLine "MBOX.CALL 2" = none ∧ assembleLine "GPIO.SET 256" = none := by decide

/-! ## 3. One Issue step each: 95_test_vectors.md 2.1, 2.4-2.7 -/

theorem test_pack_geometry : view geometry (exec (.pack 6 5 11 0xFE200000 0x15) State.reset) =
    some (.fpRead, 0xFE200004, 0, 0x1F) := by decide
theorem test_pack_address_is_not_wrapped : view geometry (exec (.pack 1 32 1 0xFFFFFFFC 7) State.reset) =
    some (.fpRead, 0x100000000, 0, 0xFFFFFFFF) := by decide
theorem test_unpack_range : view result (exec (.unpack 54 3 53 0xFE200000) State.reset) =
    some (.errRange, 0, 1, 0x20) := by decide
theorem test_gpioSet_geometry : view geometry (exec (.gpioSet 53) State.reset) =
    some (.fpRead, 0xFE200020, 21, 1) := by decide
theorem test_gpioSet_range : view result (exec (.gpioSet 54) State.reset) = some (.errRange, 0, 1, 0x20) := by decide
theorem test_gpioClr_geometry : view geometry (exec (.gpioClr 32) State.reset) =
    some (.fpRead, 0xFE20002C, 0, 1) := by decide
theorem test_gpioPull_geometry : view geometry (exec (.gpioPull 53 2) State.reset) =
    some (.fpRead, 0xFE2000F0, 10, 3) := by decide
theorem test_gpioPull_range : view result (exec (.gpioPull 54 4) State.reset) = some (.errRange, 0, 3, 0x20) := by decide
theorem test_gpioFsel_geometry : view geometry (exec (.gpioFsel 14 7) State.reset) =
    some (.fpRead, 0xFE200004, 12, 7) := by decide
theorem test_gpioFsel_range : view result (exec (.gpioFsel 0 0xFFFFFFFF) State.reset) =
    some (.errRange, 0, 2, 0x20) := by decide
theorem test_gpioAlt3_bad_pin : view result (exec (.gpioAlt3 54) State.reset) =
    some (.fatalComposite, 0, 1, 0xB2) := by decide
theorem test_gpioAlt5_begins_with_pull : view geometry (exec (.gpioAlt5 15) State.reset) =
    some (.fpRead, 0xFE2000E4, 30, 3) := by decide
theorem test_bufWr_bad_index : view result (exec (.bufWr 36 7) State.reset) =
    some (.fatalBufIndex, 0, 0x24, 0xA2) := by decide
theorem test_bufRd_bad_index : view result (exec (.bufRd 0xFFFFFFFF) State.reset) =
    some (.fatalBufIndex, 0, 0xFFFFFFFF, 0xA2) := by decide
theorem test_bufAddr : view result (exec .bufAddr State.reset) = some (.ok, 0x00081000, 0, 0x10) := by decide
theorem test_mboxCallFb_doorbell : view (fun s => (s.phase, s.lat.db)) (exec .mboxCallFb State.reset) =
    some (.mbWaitWritable, 0x00081001) := by decide
theorem test_mboxCallProp_doorbell : view (fun s => (s.phase, s.lat.db)) (exec .mboxCallProp State.reset) =
    some (.mbWaitWritable, 0x00081008) := by decide

/-! ## 4. One controller step each: 95_test_vectors.md 2.2, 2.4-2.8 -/

/-- FP_READ of pin 9, width 3, in the function-select bank. -/
def readPin9 (op : BitVec 4) (v : Word) : Latches :=
  { Latches.zero with op := op, pin := 9, w := 3, maxp := 53, base := 0xFE200000, val := v, addr := 0xFE200000,
                      shift := 27, fmask := 7 }

theorem test_fpRead_merges :
    view (fun s => (s.phase, s.lat.new)) (ctrlStep (busyWith .fpRead (readPin9 1 2) (with1 0xFE200000 0xFFFFFFFF []))) =
      some (.fpWrite, 0xD7FFFFFF) := by decide
theorem test_fpRead_extracts :
    view result (ctrlStep (busyWith .fpRead (readPin9 2 0) (with1 0xFE200000 0xD7FFFFFF []))) =
      some (.ok, 2, 0xFE200000, 0x10) := by decide
theorem test_fpRead_takes_the_environments_answer :
    view (fun s => (s.lat.new, s.answers)) (ctrlStep (busyWith .fpRead (readPin9 6 7)
      (with1 0x1000 0 [(0xFE200004, 1), (0xFE200000, 0xC0000000)]))) =
      some (0xF8000000, [(0xFE200004, 1)]) := by decide
theorem test_fpRead_checks_alignment_first :
    view result (ctrlStep (busyWith .fpRead { readPin9 1 1 with addr := 2 } State.reset)) =
      some (.fatalAlign, 0, 2, 0x92) := by decide
theorem test_fpRead_checks_the_exact_address :
    view result (ctrlStep (busyWith .fpRead { readPin9 1 1 with addr := 0x100000000 } State.reset)) =
      some (.fatalWindow, 0, 0, 0x82) := by decide
theorem test_fpWrite_completes :
    view (fun s => (result s, s.mem.wordAt 0xFE200000)) (ctrlStep (busyWith .fpWrite
      { readPin9 1 2 with new := 0xD7FFFFFF } (with1 0xFE200000 0xFFFFFFFF []))) =
      some ((.ok, 0xD7FFFFFF, 0xFE200000, 0x10), some 0xD7FFFFFF) := by decide

/-- FP_WRITE of stage 0 of a composite command on pin 53. -/
def stage0 (op : BitVec 4) : Latches :=
  { Latches.zero with op := op, pin := 53, w := 2, maxp := 53, base := 0xFE2000E4, addr := 0xFE2000F0, shift := 10,
                      fmask := 3, old := 0xFFFFFFFF, new := 0xFFFFF3FF }

theorem test_alt3_begins_stage_1 :
    view (fun s => (geometry s, s.lat.val, s.mem.wordAt 0xFE2000F0))
      (ctrlStep (busyWith .fpWrite (stage0 7) (with1 0xFE2000F0 0xFFFFFFFF []))) =
      some ((.fpRead, 0xFE200014, 9, 7), 7, some 0xFFFFF3FF) := by decide
theorem test_alt5_begins_stage_1 :
    view (fun s => (geometry s, s.lat.val)) (ctrlStep (busyWith .fpWrite (stage0 8) State.reset)) =
      some ((.fpRead, 0xFE200014, 9, 7), 2) := by decide
theorem test_bufWr_stores :
    view (fun s => (result s, s.mem.wordAt 0x0008108C)) (ctrlStep (busyWith .bufAccess
      { Latches.zero with op := 9, idx := 35, val := 7 } State.reset)) =
      some ((.ok, 7, 0x23, 0x10), some 7) := by decide
theorem test_bufRd_loads :
    view result (ctrlStep (busyWith .bufAccess { Latches.zero with op := 10, idx := 3 } (with1 0x0008100C 0x1234 []))) =
      some (.ok, 0x1234, 3, 0x10) := by decide

/-- The latches of MBOX.CALL 8. -/
def prop8 : Latches := { Latches.zero with op := 12, ch := 8, db := 0x00081008 }

theorem test_write_poll_ignores_other_bits :
    view (fun s => s.phase) (ctrlStep (busyWith .mbWaitWritable prop8 (with1 0x1000 0 [(0xFE00B898, 0x7FFFFFFF)]))) =
      some .mbPublish := by decide
theorem test_publish_hands_the_doorbell_over :
    view (fun s => (s.phase, s.inbox)) (ctrlStep (busyWith .mbPublish prop8 State.reset)) =
      some (.mbWaitReadable, [0x00081008]) := by decide
theorem test_read_poll_ignores_other_bits :
    view (fun s => s.phase) (ctrlStep (busyWith .mbWaitReadable prop8 (with1 0x1000 0 [(0xFE00B898, 0xBFFFFFFF)]))) =
      some .mbCheckEcho := by decide
theorem test_echo_with_the_wrong_channel_is_discarded :
    view (fun s => s.phase) (ctrlStep (busyWith .mbCheckEcho prop8 (with1 0x1000 0 [(0xFE00B880, 0x00081001)]))) =
      some .mbWaitReadable := by decide
theorem test_flag_is_the_whole_word :
    view result (ctrlStep (busyWith .mbCheckResponse prop8 (with1 0x00081004 0x80000001 []))) =
      some (.errResponse, 0x80000001, 0x00081008, 0x30) := by decide
theorem test_flag_success :
    view result (ctrlStep (busyWith .mbCheckResponse prop8 (with1 0x00081004 0x80000000 []))) =
      some (.ok, 0x80000000, 0x00081008, 0x10) := by decide

/-- The vectors of 2.3: an illegal CMD ends at once with ERR_ILLEGAL / 0 / CMD and STATUS 0x40. -/
theorem test_illegal_command :
    view result (step { State.reset with port := [⟨0x0000002C, 0, 0⟩] }) = some (.errIllegal, 0, 0x2C, 0x40) := by decide
theorem test_placed_word_runs :
    view result (step (State.reset.withFetchWord 32 0x0000000B)) = some (.ok, 0x00081000, 0, 0x10) := by decide
theorem test_faulted_stops :
    faultOf (step { State.reset with phase := .faulted, resCode := .fatalBufIndex, resInfo := 40 }) =
      some (.fatalBufIndex 40) := by decide
theorem test_reset_leaves_faulted :
    view (fun s => (s.phase, result s)) (step { State.reset with
      phase := .faulted, resCode := .fatalBufIndex, resInfo := 40, turns := [.reset] }) =
      some (.idle, .noResult, 0, 0, 0) := by decide

/-! ## 5. Witnesses: a concrete case that meets every hypothesis of a statement -/

/-- An outcome whose view is known is a next state. -/
theorem next_of_view {o : Result} {t : State} (h : view id o = some t) : o = .next t := by
  cases o <;> simp [view] at h
  exact congrArg _ h

/-- The next state of a step that answers one. -/
theorem step_next {s : State} (h : (view id (step s)).isSome = true) : step s = .next (stateAfter 1 s) := by
  cases hs : step s <;> simp [hs, view, stateAfter] at h ⊢

/-- A schedule of a whole call (95_test_vectors.md P2 in small): the write-poll, the publish, the GPU's write of word 1, the
read-poll, the echo and the flag. -/
def callStart : State :=
  { State.reset with
    phase := .mbWaitWritable, lat := prop8,
    answers := [(0xFE00B898, 0), (0xFE00B898, 0), (0xFE00B880, 0x00081008)],
    turns := [.block, .block, .gpuWrite 1 0x80000000, .block, .block, .block] }

/-- The run from there; it stays in IDLE from step 6 on. -/
def callRun (n : Nat) : State := stateAfter n callStart

theorem idle_stays (n : Nat) : stateAfter n (stateAfter 6 callStart) = stateAfter 6 callStart := by
  induction n with
  | zero => rfl
  | succ n ih =>
    have h : step (stateAfter 6 callStart) = .next (stateAfter 6 callStart) := next_of_view (by decide)
    rw [stateAfter, h]
    exact ih

theorem stateAfter_add (m n : Nat) (s : State)
    (h : ∀ k, k < m → (view id (step (stateAfter k s))).isSome = true) : stateAfter (m + n) s = stateAfter n (stateAfter m s) := by
  induction m generalizing s with
  | zero => simp [stateAfter]
  | succ m ih =>
    obtain ⟨t, ht⟩ : ∃ t, step s = .next t := ⟨_, step_next (h 0 (by omega))⟩
    rw [show m + 1 + n = (m + n) + 1 by omega]
    simp only [stateAfter, ht]
    refine ih t fun k hk => ?_
    have := h (k + 1) (by omega)
    simpa only [stateAfter, ht] using this

theorem callRun_live : ∀ k, k < 6 → (view id (step (callRun k))).isSome = true := by decide

theorem callRun_late (n : Nat) (h : 6 ≤ n) : callRun n = callRun 6 := by
  obtain ⟨k, rfl⟩ := Nat.exists_eq_add_of_le h
  unfold callRun
  rw [stateAfter_add 6 k callStart callRun_live, idle_stays]

theorem callRun_isRun : IsRun callRun := by
  intro n
  by_cases h : n < 6
  · have e : callRun (n + 1) = stateAfter 1 (callRun n) :=
      stateAfter_add n 1 callStart fun k hk => callRun_live k (by omega)
    rw [e]
    exact step_next (callRun_live n h)
  · rw [callRun_late n (by omega), callRun_late (n + 1) (by omega)]
    exact next_of_view (by decide)

theorem callRun_phase_late (n : Nat) (h : 6 ≤ n) : (callRun n).phase = .idle := by
  rw [callRun_late n h]
  decide

/-- In the steps before the call ends, a phase is known. -/
theorem callRun_phases : (List.range 6).map (fun n => (callRun n).phase) =
    [.mbWaitWritable, .mbPublish, .mbWaitReadable, .mbWaitReadable, .mbCheckEcho, .mbCheckResponse] := by decide

theorem callRun_writable : EnvWritable callRun := by
  intro n hn
  by_cases h : n < 6
  · have : n = 0 := by
      revert hn
      revert n
      decide
    subst this
    exact ⟨0, 0, Nat.le_refl _, rfl, by unfold ReadsAt; decide, by decide⟩
  · rw [callRun_phase_late n (by omega)] at hn
    cases hn

theorem callRun_echoes : EnvEchoes callRun := by
  intro n hn
  by_cases h : n < 6
  · have : n ≤ 3 := by
      revert hn
      revert n
      decide
    exact ⟨3, 4, 0, this, by decide, by decide, by unfold ReadsAt; decide, by decide, by decide,
      by unfold ReadsAt; decide⟩
  · rw [callRun_phase_late n (by omega)] at hn
    cases hn

theorem callRun_responds : EnvRespondsBeforeEcho callRun := by
  intro m hm hr
  clear hr
  by_cases h : m < 6
  · have : m = 4 := by
      revert hm
      revert m
      decide
    subst this
    refine ⟨2, 3, 0x80000000, 0, by decide, by decide, by unfold GpuWritesAt; decide, by decide,
      by unfold ReadsAt; decide, fun q h1 h2 => ?_, by decide, fun q i u hq e => ?_⟩
    · have : q = 4 := by omega
      subst this
      decide
    by_cases h6 : 6 ≤ q
    · exact ⟨6, by decide, h6, by decide⟩
    · unfold GpuWritesAt at e
      exfalso
      have hlen := congrArg (fun l => l.head?.map Event.performer) e
      simp only [List.head?_cons, Option.map_some] at hlen
      revert hlen
      clear e
      have : ∀ q, q < 6 → 3 ≤ q → ¬ ((callRun (q + 1)).events.head?.map Event.performer = some .mboxHw) := by decide
      exact this q (by omega) hq
  · rw [callRun_phase_late m (by omega)] at hm
    cases hm

theorem witness_CallEndsWhenTheMailboxAnswers :
    IsRun callRun ∧ EnvWritable callRun ∧ EnvEchoes callRun ∧ Turn.reset ∉ (callRun 0).turns ∧
      (callRun 0).phase = .mbWaitWritable :=
  ⟨callRun_isRun, callRun_writable, callRun_echoes, by decide, by decide⟩

theorem witness_OkMeansTheGpuWroteTheFlag :
    IsRun callRun ∧ EnvRespondsBeforeEcho callRun ∧ (callRun 4).phase = .mbCheckEcho ∧
      ReadsAt callRun 4 (callRun 4).cfg.mboxReadAddr.toNat (callRun 4).lat.db ∧ 4 < 5 ∧
      (∀ q, 4 < q → q ≤ 5 → (callRun q).phase = .mbCheckResponse) ∧ (callRun 6).phase = .idle ∧
      (callRun 6).resCode = .ok :=
  ⟨callRun_isRun, callRun_responds, by decide, by unfold ReadsAt; decide, by decide,
    fun q h1 h2 => by
      have : q = 5 := by omega
      subst this
      decide,
    by decide, by decide⟩

/-! ### Encoding, issue and steps -/

theorem witness_DecodeOfEncode :
    (Instr.pack 255 1 255 0xFFFFFFFF 0xFFFFFFFF).wellFormed = true ∧ (Instr.unpack 0 32 0 0).wellFormed = true := by decide
theorem witness_EncodeOfDecode : decode 0x00200001 7 8 = .legal (.pack 0 32 0 7 8) := by decide
/-- A word for each clause of R95, and a block in IDLE. -/
theorem witness_IllegalExactlyByTheClauses :
    (IllegalClauses 0x0000003F ∧ IllegalClauses 0x4D430901 ∧ IllegalClauses 0x00010003 ∧ IllegalClauses 0x0000001B ∧
      IllegalClauses 0x0000011C ∧ IllegalClauses 0x00000001 ∧ IllegalClauses 0x00210001 ∧ IllegalClauses 0x0000002C) ∧
    State.reset.phase = .idle := by
  unfold IllegalClauses
  exact ⟨⟨by decide, by decide, by decide, by decide, by decide, by decide, by decide, by decide⟩, rfl⟩
/-- A line, its mnemonic and its operands as texts, and the largest operands that fit. -/
theorem witness_AssembledLinesDecode :
    assembleLine "UNPACK 9, 3, 53, 0xFE200000" = some ⟨0x0D430902, 0xFE200000, 0⟩ ∧
    ("GPIO.PULL", 2) ∈ mnemonics ∧ List.Forall₂ IsNumeral [15, 3] ["15".toList, "0x3".toList] ∧
    (255 ≤ 255 ∧ 1 ≤ 32 ∧ 32 ≤ 32 ∧ 0xFFFFFFFF < 2 ^ 32) := by
  refine ⟨by decide, by decide, .cons (.inl (by decide)) (.cons (.inr (by decide)) .nil), by decide⟩
/-- A wrong number of operands, and an unknown mnemonic. -/
theorem witness_AssemblerRejectsWhatDoesNotFit :
    (∀ e ∈ mnemonics, "BUF.ADDR".toList = e.1.toList → ([0] : List Nat).length ≠ e.2) ∧
    (∀ e ∈ mnemonics, "NOP".toList = e.1.toList → ([] : List Nat).length ≠ e.2) := by decide

/-- The block idle, with `GPIO.SET 14` waiting and its turn next. -/
def setWaiting : State := { State.reset with port := [⟨0x00000E03, 0, 0⟩], turns := [.block] }

theorem witness_StepRunsTheDecodedCommand :
    configWellFormed setWaiting.cfg = true ∧ setWaiting.turns = .block :: [] ∧ setWaiting.phase = .idle ∧
      setWaiting.port = ⟨0x00000E03, 0, 0⟩ :: [] ∧ decodeCommand ⟨0x00000E03, 0, 0⟩ = .legal (.gpioSet 14) ∧
      (stateAfter 1 setWaiting).turns = [] ∧ (stateAfter 1 setWaiting).phase ≠ .idle ∧
    (({ setWaiting with turns := [.answer 0xFE00B898 1] } : State).turns = .answer 0xFE00B898 1 :: [] ∧
      ({ setWaiting with turns := [.absorb] } : State).turns = .absorb :: []) ∧
    callStart.mem.wordAt 0xFE00B880 = none ∧
    (callStart.answers = [(0xFE00B898, 0), (0xFE00B898, 0)] ++ (0xFE00B880, 0x00081008) :: [] ∧
      ∀ x ∈ ([(0xFE00B898, 0), (0xFE00B898, 0)] : List (Nat × Word)), x.1 ≠ 0xFE00B880) := by decide
theorem witness_PlacedWordRunsNext :
    configWellFormed State.reset.cfg = true ∧ decodeTableWord 32 0x00000007 = some (.gpioAlt3 0) := by decide
/-- A PACK, an UNPACK and a BUF.WR. -/
theorem witness_IssueLatchesTheOperands :
    decodeCommand ⟨0x0D430901, 0xFE200000, 2⟩ = .legal (.pack 9 3 53 0xFE200000 2) ∧
    view (fun t => t.lat.op) (issue ⟨0x0D430901, 0xFE200000, 2⟩ State.reset) = some 0x1 ∧
    decodeCommand ⟨0x0D430902, 0xFE200000, 2⟩ = .legal (.unpack 9 3 53 0xFE200000) ∧
    view (fun t => t.lat.op) (issue ⟨0x0D430902, 0xFE200000, 2⟩ State.reset) = some 0x2 ∧
    decodeCommand ⟨0x00000009, 1, 2⟩ = .legal (.bufWr 1 2) ∧
    view (fun t => t.lat.op) (issue ⟨0x00000009, 1, 2⟩ State.reset) = some 0x9 := by decide
theorem witness_IssueWaitsUntilIdle :
    (callRun 0).phase ≠ .idle ∧ step (callRun 0) = .next (callRun 1) := ⟨by decide, callRun_isRun 0⟩
/-- A step without an access, one with the controller's read, and one with MBOX_HW's write. -/
theorem witness_OneAccessPerStep :
    step setWaiting = .next (stateAfter 1 setWaiting) ∧ step (callRun 0) = .next (callRun 1) ∧
      step (callRun 2) = .next (callRun 3) := ⟨step_next (by decide), callRun_isRun 0, callRun_isRun 2⟩
theorem witness_ConfigurationNeverChanges : step (callRun 1) = .next (callRun 2) := callRun_isRun 1
theorem witness_IllFormedConfigurationHasNoRun :
    configWellFormed Config.tcfg = true ∧ configWellFormed { Config.tcfg with bufWords := 1 } = false ∧
      configWellFormed { Config.tcfg with gpsetBase := 0xFDFFFFFC } = false := by decide

/-! ### The invariant -/

/-- FP_WRITE of `PACK 9, 3, 53, 0xFE200000, 2` on the word 0xFFFFFFFF. -/
def packWriting : State :=
  busyWith .fpWrite { readPin9 1 2 with old := 0xFFFFFFFF, new := 0xD7FFFFFF } (with1 0xFE200000 0xFFFFFFFF [])

theorem packWriting_fields : FieldLatchesOk packWriting :=
  ⟨by decide, by decide, by decide, by decide, by decide, by decide, by decide, by decide, by decide⟩

theorem packWriting_inv : Inv packWriting :=
  ⟨by decide, by decide, fun _ => packWriting_fields, fun _ => ⟨by decide, by decide, by decide⟩,
    (fun h => by cases h), (fun h => by cases h), (fun h => by cases h)⟩

/-- FP_WRITE of stage 0 of `GPIO.ALT3 53`. -/
def alt3Writing : State := busyWith .fpWrite (stage0 7) (with1 0xFE2000F0 0xFFFFFFFF [])

theorem alt3Writing_inv : Inv alt3Writing :=
  ⟨by decide, by decide,
    fun _ => ⟨by decide, by decide, by decide, by decide, by decide, by decide, by decide, by decide, by decide⟩,
    fun _ => ⟨by decide, by decide, by decide⟩, (fun h => by cases h), (fun h => by cases h), (fun h => by cases h)⟩

/-- FP_READ of `PACK 0, 3, 53, 0xFF000000, 1`, whose register is outside the window. -/
def packOutside : State :=
  busyWith .fpRead { readPin9 1 1 with pin := 0, base := 0xFF000000, addr := 0xFF000000, shift := 0 } State.reset

theorem packOutside_inv : Inv packOutside :=
  ⟨by decide, by decide,
    fun _ => ⟨by decide, by decide, by decide, by decide, by decide, by decide, by decide, by decide, by decide⟩,
    (fun h => by cases h), (fun h => by cases h), (fun h => by cases h), (fun h => by cases h)⟩

/-- MB_CHECK_RESPONSE after a matching echo. -/
def flagReading : State := busyWith .mbCheckResponse { prop8 with echo := 0x00081008 } (with1 0x00081004 0x80000000 [])

theorem flagReading_inv : Inv flagReading :=
  ⟨by decide, by decide, (fun h => by rcases h with h | h <;> cases h), (fun h => by cases h), (fun h => by cases h),
    fun _ => ⟨by decide, by decide, by decide⟩, fun _ => by decide⟩

/-- `GPIO.ALT3 54` waiting in IDLE. -/
def badCompositeWaiting : State := { State.reset with port := [⟨0x00003607, 0, 0⟩] }

theorem badCompositeWaiting_inv : Inv badCompositeWaiting :=
  ⟨by decide, by decide, (fun h => by rcases h with h | h <;> cases h), (fun h => by cases h), (fun h => by cases h),
    (fun h => by cases h), (fun h => by cases h)⟩

theorem witness_PhasesFollowTheStateMachine :
    (Inv alt3Writing ∧ configWellFormed alt3Writing.cfg = true ∧ alt3Writing.phase ≠ .idle ∧
      (view id (ctrlStep alt3Writing)).isSome = true) ∧
    (Inv flagReading ∧ configWellFormed flagReading.cfg = true ∧ flagReading.phase ≠ .idle ∧
      (view id (ctrlStep flagReading)).isSome = true) ∧
    (Inv packOutside ∧ configWellFormed packOutside.cfg = true ∧ packOutside.phase ≠ .idle ∧
      view (fun t => t.phase) (ctrlStep packOutside) = some .faulted) :=
  ⟨⟨alt3Writing_inv, by decide, by decide, by decide⟩, ⟨flagReading_inv, by decide, by decide, by decide⟩,
    packOutside_inv, by decide, by decide, by decide⟩
theorem witness_EveryStepKeepsTheInvariant :
    Inv packWriting ∧ step packWriting = .next (stateAfter 1 packWriting) := ⟨packWriting_inv, step_next (by decide)⟩
theorem witness_NoFatalCompositeInStageOne :
    Inv badCompositeWaiting ∧ step badCompositeWaiting = .next (stateAfter 1 badCompositeWaiting) ∧
      ((stateAfter 1 badCompositeWaiting).resCode = .fatalComposite ∧ badCompositeWaiting.resCode ≠ .fatalComposite) ∧
      badCompositeWaiting.phase ≠ .faulted ∧ (stateAfter 1 badCompositeWaiting).phase = .faulted ∧
      (stateAfter 1 badCompositeWaiting).lat.op = 7 :=
  ⟨badCompositeWaiting_inv, step_next (by decide), by decide, by decide, by decide, by decide⟩

/-! ### The checked access and the datapath -/

/-- A register access of the controller, and each clause of the checks at its boundary: the window's ends, one word outside each, misaligned inside and outside, and 2^32. -/
theorem witness_MmioChecksAlignmentThenWindow :
    (step (callRun 0) = .next (callRun 1) ∧
      (callRun 1).events = ⟨.ctrl, .read, .register, 0xFE00B898, 0⟩ :: (callRun 0).events) ∧
    (2 ^ 32 ≤ 0x100000000) ∧ (0xFEFFFFFF % 4 ≠ 0 ∧ 0x2 % 4 ≠ 0) ∧
    (0xFDFFFFFC % 4 = 0 ∧ inWindow Config.tcfg 0xFDFFFFFC = false) ∧
    (0xFF000000 % 4 = 0 ∧ inWindow Config.tcfg 0xFF000000 = false) ∧
    (0xFE000000 % 4 = 0 ∧ inWindow Config.tcfg 0xFE000000 = true) ∧
    (0xFEFFFFFC % 4 = 0 ∧ inWindow Config.tcfg 0xFEFFFFFC = true) :=
  ⟨⟨callRun_isRun 0, by decide⟩, by decide⟩
theorem witness_RangeCheckReportsBothErrors :
    1 ≤ (3 : BitVec 6).toNat ∧ (3 : BitVec 6).toNat ≤ 32 ∧ rangeCheck 54 8 3 53 = 3 ∧ rangeCheck 54 8 3 53 ≠ 0 := by decide
theorem witness_GeometryStaysInsideTheWord : (1 ≤ 1 ∧ 1 ≤ 32) ∧ (1 ≤ 32 ∧ 32 ≤ 32) := by decide
theorem witness_FieldsOfTwoPinsAreApart : 1 ≤ 3 ∧ 3 ≤ 32 ∧ 9 ≠ 10 := by decide
theorem witness_MergeChangesExactlyTheField :
    (1 ≤ 1 ∧ 31 + 1 ≤ 32 ∧ (1 : Word).toNat ≤ 2 ^ 1 - 1 ∧ 31 < 32) ∧
    (1 ≤ 32 ∧ 0 + 32 ≤ 32 ∧ (0xFFFFFFFF : Word).toNat ≤ 2 ^ 32 - 1) := by decide
theorem witness_ExtractInvertsMerge : 1 ≤ 3 ∧ 27 + 3 ≤ 32 ∧ (7 : Word).toNat ≤ 2 ^ 3 - 1 := by decide

/-! ### PACK and UNPACK -/

/-- The widest field, and the last pin of a 3-bit bank with the largest value. -/
theorem witness_PackCompletes :
    (1 ≤ (32 : BitVec 6).toNat ∧ (32 : BitVec 6).toNat ≤ 32 ∧ (0 : BitVec 8).toNat ≤ (0 : BitVec 8).toNat ∧
      (0xFFFFFFFF : Word).toNat ≤ 2 ^ (32 : BitVec 6).toNat - 1 ∧ (0xFE200000 : Word).toNat % 4 = 0 ∧
      inWindow Config.tcfg (regOf (0 : BitVec 8).toNat (32 : BitVec 6).toNat (0xFE200000 : Word).toNat) = true) ∧
    (1 ≤ (3 : BitVec 6).toNat ∧ (3 : BitVec 6).toNat ≤ 32 ∧ (53 : BitVec 8).toNat ≤ (53 : BitVec 8).toNat ∧
      (7 : Word).toNat ≤ 2 ^ (3 : BitVec 6).toNat - 1 ∧ (0xFE200000 : Word).toNat % 4 = 0 ∧
      inWindow Config.tcfg (regOf (53 : BitVec 8).toNat (3 : BitVec 6).toNat (0xFE200000 : Word).toNat) = true) := by decide
theorem witness_UnpackCompletes :
    1 ≤ (1 : BitVec 6).toNat ∧ (1 : BitVec 6).toNat ≤ 32 ∧ (255 : BitVec 8).toNat ≤ (255 : BitVec 8).toNat ∧
      (0xFE20001C : Word).toNat % 4 = 0 ∧
      inWindow Config.tcfg (regOf (255 : BitVec 8).toNat (1 : BitVec 6).toNat (0xFE20001C : Word).toNat) = true := by decide
/-- A bad pin, a bad value, both. -/
theorem witness_PackerRangeErrorTouchesNothing :
    1 ≤ (3 : BitVec 6).toNat ∧ (3 : BitVec 6).toNat ≤ 32 ∧ rangeCheck 54 7 3 53 ≠ 0 ∧ rangeCheck 53 8 3 53 ≠ 0 ∧
      rangeCheck 54 8 3 53 ≠ 0 ∧ (53 : BitVec 8).toNat < (54 : BitVec 8).toNat := by decide
/-- Misaligned and outside; aligned and one word above the window; aligned at 2^32. -/
theorem witness_PackerFatalOnMisalignedOrOutside :
    1 ≤ (32 : BitVec 6).toNat ∧ (32 : BitVec 6).toNat ≤ 32 ∧ (1 : BitVec 8).toNat ≤ (1 : BitVec 8).toNat ∧
      (7 : Word).toNat ≤ 2 ^ (32 : BitVec 6).toNat - 1 ∧ (0x00000002 : Word).toNat % 4 ≠ 0 ∧
      inWindow Config.tcfg (regOf 1 32 (0xFEFFFFFC : Word).toNat) = false ∧
      inWindow Config.tcfg (regOf 1 32 (0xFFFFFFFC : Word).toNat) = false := by decide
/-- 95_test_vectors.md property 1, and its property 2. -/
theorem witness_PackUnpackRoundTrip :
    (1 ≤ (3 : BitVec 6).toNat ∧ (3 : BitVec 6).toNat ≤ 32 ∧ (9 : BitVec 8).toNat ≤ (53 : BitVec 8).toNat ∧
      (2 : Word).toNat ≤ 2 ^ (3 : BitVec 6).toNat - 1 ∧ (0xFE200000 : Word).toNat % 4 = 0 ∧
      inWindow Config.tcfg (regOf 9 3 0xFE200000) = true ∧ RamLike (regOf 9 3 0xFE200000) (with1 0xFE200000 0xFFFFFFFF [])) ∧
    (53 : BitVec 8).toNat < (54 : BitVec 8).toNat ∧ 2 ^ (3 : BitVec 6).toNat - 1 < (8 : Word).toNat := by
  unfold RamLike
  decide

/-! ### GPIO -/

theorem witness_GpioSetAndClearComplete : configWellFormed Config.tcfg = true ∧ (53 : BitVec 8).toNat ≤ 53 := by decide
theorem witness_GpioPullAndFselComplete :
    configWellFormed Config.tcfg = true ∧ (53 : BitVec 8).toNat ≤ 53 ∧ ((3 : Word).toNat ≤ 3 ∧ (7 : Word).toNat ≤ 7) := by
  decide
/-- Operands out of range, and a step into FAULTED (of GPIO.ALT3). -/
theorem witness_GpioRangeErrorsPropagate :
    (53 < (54 : BitVec 8).toNat ∧ 3 < (4 : Word).toNat ∧ 7 < (8 : Word).toNat) ∧
    (Inv badCompositeWaiting ∧ step badCompositeWaiting = .next (stateAfter 1 badCompositeWaiting) ∧
      badCompositeWaiting.phase ≠ .faulted ∧ (stateAfter 1 badCompositeWaiting).phase = .faulted) :=
  ⟨by decide, badCompositeWaiting_inv, step_next (by decide), by decide, by decide⟩
theorem witness_SingleGpioCommandsArePacks :
    (Instr.gpioFsel 14 2, (6 : BitVec 4), Config.tcfg.gpfselBase, (3 : BitVec 6), (2 : Word)) ∈
      [(Instr.gpioSet 14, (3 : BitVec 4), Config.tcfg.gpsetBase, (1 : BitVec 6), (1 : Word)),
       (.gpioClr 14, 4, Config.tcfg.gpclrBase, 1, 1), (.gpioPull 14 2, 5, Config.tcfg.gppullBase, 2, 2),
       (.gpioFsel 14 2, 6, Config.tcfg.gpfselBase, 3, 2)] := by decide
/-- An admitted pin; a refused pull register; a code that does not fit; a refused function-select register. -/
theorem witness_CompositeCommandsComplete :
    (configWellFormed Config.tcfg = true ∧ (53 : BitVec 8).toNat ≤ 53) ∧
    (let c : Config := { Config.tcfg with gppullBase := 0xFDFFFFFC }
     mmioFault c (regOf (0 : BitVec 8).toNat 2 c.gppullBase.toNat) = some .fatalWindow) ∧
    mmioFault Config.tcfg (regOf (53 : BitVec 8).toNat 2 Config.tcfg.gppullBase.toNat) = none ∧
    7 < ({ Config.tcfg with fselAlt5 := 8 } : Config).fselAlt5.toNat ∧ (7 : Word).toNat ≤ 7 ∧
    (let c : Config := { Config.tcfg with gpfselBase := 0xFE200002 }
     mmioFault c (regOf (0 : BitVec 8).toNat 3 c.gpfselBase.toNat) = some .fatalAlign) := by decide
theorem witness_CompositeOnABadPinIsFatal :
    53 < (54 : BitVec 8).toNat ∧ (Instr.gpioAlt3 54, (7 : BitVec 4)) ∈ [(Instr.gpioAlt3 54, (7 : BitVec 4)), (.gpioAlt5 54, 8)] ∧
      (Instr.gpioAlt5 54, (8 : BitVec 4)) ∈ [(Instr.gpioAlt3 54, (7 : BitVec 4)), (.gpioAlt5 54, 8)] := by decide

/-! ### The mailbox buffer -/

theorem witness_BufWrCompletes : (35 : Word).toNat < Config.tcfg.bufWords ∧ (0 : Word).toNat < Config.tcfg.bufWords := by decide
theorem witness_BufRdCompletes : (35 : Word).toNat < Config.tcfg.bufWords := by decide
/-- The same index, and the one beside it. -/
theorem witness_BufferReadsTheLastWrite :
    (34 : Word).toNat < Config.tcfg.bufWords ∧ (35 : Word).toNat < Config.tcfg.bufWords ∧ (34 : Word) ≠ 35 := by decide
theorem witness_BufferIndexOutOfRangeIsFatal : Config.tcfg.bufWords ≤ (36 : Word).toNat := by decide
theorem witness_BufAddrReportsTheAddress : configWellFormed State.reset.cfg = true := by decide

theorem buffer_outside_window (a : Nat) (h : inBuffer Config.tcfg a = true) : inWindow Config.tcfg a = false := by
  simp only [inBuffer, inWindow, Bool.and_eq_true, decide_eq_true_eq, Bool.and_eq_false_iff, decide_eq_false_iff_not] at h ⊢
  have h1 : Config.tcfg.bufAddr.toNat + 4 * Config.tcfg.bufWords = 0x81090 := by decide
  have h2 : Config.tcfg.peripheralBase.toNat = 0xFE000000 := by decide
  omega

/-- BUF_ACCESS of `BUF.WR 35, 7`. -/
def bufWriting : State := busyWith .bufAccess { Latches.zero with op := 9, idx := 35, val := 7 } State.reset

/-- A change by BUF.WR, and one by MBOX_HW. -/
theorem witness_OnlyBufWrAndTheGpuChangeTheBuffer :
    (∀ a, inBuffer Config.tcfg a = true → inWindow Config.tcfg a = false) ∧
    (step bufWriting = .next (stateAfter 1 bufWriting) ∧ inBuffer bufWriting.cfg 0x8108C = true ∧
      (stateAfter 1 bufWriting).mem.byteAt 0x8108C ≠ bufWriting.mem.byteAt 0x8108C) ∧
    (step (callRun 2) = .next (callRun 3) ∧ inBuffer (callRun 2).cfg 0x81007 = true ∧
      (callRun 3).mem.byteAt 0x81007 ≠ (callRun 2).mem.byteAt 0x81007) :=
  ⟨buffer_outside_window, ⟨step_next (by decide), by decide, by decide⟩, callRun_isRun 2, by decide, by decide⟩
/-- A move that is enabled, with the last word in bounds, one in a phase that forbids it, and the recorded write. -/
theorem witness_GpuWritesOnlyDuringACall :
    (configWellFormed (callRun 2).cfg = true ∧ (callRun 2).turns = .gpuWrite 1 0x80000000 :: [.block, .block, .block] ∧
      (callRun 2).phase = .mbWaitReadable ∧ 35 < (callRun 2).cfg.bufWords) ∧
    (({ State.reset with turns := [.gpuWrite 1 0] } : State).turns = .gpuWrite 1 0 :: [] ∧
      (view id (step { State.reset with turns := [.gpuWrite 1 0] })).isSome = true ∧ ¬ (State.reset.phase = .mbWaitReadable ∨ State.reset.phase = .mbCheckEcho ∨ State.reset.phase = .mbCheckResponse)) ∧
    (step (callRun 2) = .next (callRun 3) ∧
      (callRun 3).events = ⟨.mboxHw, .write, .buffer, 0x81004, 0x80000000⟩ :: (callRun 2).events) :=
  ⟨by decide, by decide, callRun_isRun 2, by decide⟩

/-! ### The mailbox call -/

theorem publishing_inv : Inv (callRun 1) :=
  ⟨by decide, by decide, (fun h => by rcases h with h | h <;> cases h), (fun h => by cases h), (fun h => by cases h),
    fun _ => ⟨by decide, by decide, by decide⟩, (fun h => by cases h)⟩

theorem witness_DoorbellIsAddressAndChannel :
    (Inv (callRun 1) ∧ configWellFormed (callRun 1).cfg = true ∧ (callRun 1).phase = .mbPublish ∧
      (view id (ctrlStep (callRun 1))).isSome = true) ∧ Config.tcfg.bufAddr.toNat % 16 = 0 :=
  ⟨⟨publishing_inv, by decide, by decide, by decide⟩, by decide⟩
theorem witness_MboxCallIssueAssemblesTheDoorbell :
    (CallOn .mboxCallFb 1 ∧ CallOn .mboxCallProp 8) ∧
    (opOf 0x0000002C = 0xC ∧ (0x0000002C : Word) ≠ 0x0000001C ∧ (0x0000002C : Word) ≠ 0x0000008C) ∧
    configWellFormed State.reset.cfg = true := by
  unfold CallOn
  decide
theorem witness_WritePollSpinsWhileFull : configWellFormed (callRun 0).cfg = true ∧ (callRun 0).phase = .mbWaitWritable := by
  decide

/-- IDLE with the answers of a straight success on channel 8 and word 1 in the buffer (95_test_vectors.md 2.7). -/
def callReady : State :=
  with1 0x00081004 0x80000000 [(0xFE00B898, 0), (0xFE00B898, 0), (0xFE00B880, 0x00081008)]

/-- MB_PUBLISH, and a whole call of which every part of the second clause is a prefix. -/
theorem witness_DoorbellIsPublishedExactlyOnce :
    (configWellFormed (callRun 1).cfg = true ∧ (callRun 1).phase = .mbPublish) ∧
    CallOn .mboxCallProp 8 ∧
    [0, 1, 2, 3, 4, 5].map (fun n => view (fun t => t.phase) (runCommand .mboxCallProp n callReady)) =
      [some .mbWaitWritable, some .mbPublish, some .mbWaitReadable, some .mbCheckEcho, some .mbCheckResponse, some .idle] := by
  unfold CallOn
  decide
theorem witness_ReadPollSpinsWhileEmpty : configWellFormed (callRun 3).cfg = true ∧ (callRun 3).phase = .mbWaitReadable := by
  decide
theorem witness_EchoMatchComparesTheWholeWord : configWellFormed (callRun 4).cfg = true ∧ (callRun 4).phase = .mbCheckEcho := by
  decide
theorem witness_FlagParseTestsTheWholeWord : (callRun 5).phase = .mbCheckResponse := by decide
theorem witness_MboxCallCompletes :
    configWellFormed callReady.cfg = true ∧ CallOn .mboxCallProp 8 ∧ (0 : Word) &&& callReady.cfg.mboxFullMask = 0 ∧
      (0 : Word) &&& callReady.cfg.mboxEmptyMask = 0 ∧ callReady.mem.wordAt callReady.cfg.mboxStatusAddr.toNat = none ∧
      callReady.mem.wordAt callReady.cfg.mboxReadAddr.toNat = none ∧
      storesAt callReady.cfg.mboxWriteAddr.toNat callReady = false ∧
      callReady.mem.wordAt (callReady.cfg.bufAddr.toNat + 4) = some 0x80000000 ∧
      callReady.answers = (callReady.cfg.mboxStatusAddr.toNat, 0) :: (callReady.cfg.mboxStatusAddr.toNat, 0) ::
        (callReady.cfg.mboxReadAddr.toNat, doorbell callReady.cfg 8) :: [] := by
  unfold CallOn
  decide
/-- The flag-parse's read of the buffer, and the matching echo. -/
theorem witness_OnlyAMatchingEchoIsTheResponse :
    (mailboxPhase (callRun 5).phase = true ∧ step (callRun 5) = .next (callRun 6) ∧
      (callRun 6).events = ⟨.ctrl, .read, .buffer, 0x81004, 0x80000000⟩ :: (callRun 5).events) ∧
    (step (callRun 4) = .next (callRun 5) ∧ (callRun 5).phase = .mbCheckResponse ∧ (callRun 4).phase ≠ .mbCheckResponse) :=
  ⟨⟨by decide, callRun_isRun 5, by decide⟩, callRun_isRun 4, by decide, by decide⟩

/-- A run that polls a full mailbox. -/
def fullRun (n : Nat) : State :=
  { busyWith .mbWaitWritable prop8 (with1 0xFE00B898 0x80000000 []) with
    events := List.replicate n ⟨.ctrl, .read, .register, 0xFE00B898, 0x80000000⟩ }

/-- A run that polls an empty mailbox. -/
def emptyRun (n : Nat) : State :=
  { busyWith .mbWaitReadable prop8 (with1 0xFE00B898 0x40000000 []) with
    events := List.replicate n ⟨.ctrl, .read, .register, 0xFE00B898, 0x40000000⟩ }

/-- The accesses of a run whose only echo is 0. -/
def otherEvents : Nat → List Event
  | 0 => []
  | n + 1 => ⟨.ctrl, .read, .register, if n % 2 = 0 then 0xFE00B898 else 0xFE00B880, 0⟩ :: otherEvents n

/-- A run whose only echo is 0. -/
def otherRun (n : Nat) : State :=
  { State.reset with
    phase := if n % 2 = 0 then .mbWaitReadable else .mbCheckEcho, lat := prop8,
    mem := Memory.setWord (Memory.setWord [] 0xFE00B898 0) 0xFE00B880 0, events := otherEvents n }

/-- With nothing scheduled, a busy block's step is its controller's. -/
theorem step_of_busy {s : State} (hc : configWellFormed s.cfg = true) (ht : s.turns = []) (hp : s.phase ≠ .idle) :
    step s = ctrlStep s := by
  rcases step_cases s with ⟨h, _⟩ | ⟨_, h⟩
  · rw [h] at hc
    cases hc
  · rw [h, nextTurn, ht]
    rcases blockTurn_cases s with ⟨_, _, h, _⟩ | ⟨_, h⟩
    · exact absurd h hp
    · exact h

theorem fullRun_isRun : IsRun fullRun := by
  intro n
  have hm : (fullRun n).mem.wordAt (fullRun n).cfg.mboxStatusAddr.toNat = some 0x80000000 := by
    show (Memory.setWord [] 0xFE00B898 0x80000000).wordAt Config.tcfg.mboxStatusAddr.toNat = _
    decide
  have hx : (0x80000000 : Word) &&& Config.tcfg.mboxFullMask ≠ 0 := by decide
  rw [step_of_busy (show configWellFormed Config.tcfg = true by decide) rfl (show Phase.mbWaitWritable ≠ .idle by decide),
    ctrlStep_of_waitWritable rfl, waitWritableStep,
    mmioRead_of_ok _ (show mmioFault Config.tcfg Config.tcfg.mboxStatusAddr.toNat = none by decide),
    readValue_of_stored hm, afterRead_of_stored hm]
  exact congrArg Host.Outcome.next (if_pos hx)
theorem emptyRun_isRun : IsRun emptyRun := by
  intro n
  have hm : (emptyRun n).mem.wordAt (emptyRun n).cfg.mboxStatusAddr.toNat = some 0x40000000 := by
    show (Memory.setWord [] 0xFE00B898 0x40000000).wordAt Config.tcfg.mboxStatusAddr.toNat = _
    decide
  have hx : (0x40000000 : Word) &&& Config.tcfg.mboxEmptyMask ≠ 0 := by decide
  rw [step_of_busy (show configWellFormed Config.tcfg = true by decide) rfl (show Phase.mbWaitReadable ≠ .idle by decide),
    ctrlStep_of_waitReadable rfl, waitReadableStep,
    mmioRead_of_ok _ (show mmioFault Config.tcfg Config.tcfg.mboxStatusAddr.toNat = none by decide),
    readValue_of_stored hm, afterRead_of_stored hm]
  exact congrArg Host.Outcome.next (if_pos hx)
theorem otherRun_isRun : IsRun otherRun := by
  intro n
  have hm1 : (otherRun n).mem.wordAt Config.tcfg.mboxStatusAddr.toNat = some 0 := by
    show (Memory.setWord (Memory.setWord [] 0xFE00B898 0) 0xFE00B880 0).wordAt Config.tcfg.mboxStatusAddr.toNat = _
    decide
  have hm2 : (otherRun n).mem.wordAt Config.tcfg.mboxReadAddr.toNat = some 0 := by
    show (Memory.setWord (Memory.setWord [] 0xFE00B898 0) 0xFE00B880 0).wordAt Config.tcfg.mboxReadAddr.toNat = _
    decide
  have hc : (otherRun n).cfg = Config.tcfg := rfl
  have hl : (otherRun n).lat = prop8 := rfl
  rcases Nat.mod_two_eq_zero_or_one n with h | h
  · have h1 : (n + 1) % 2 = 1 := by omega
    have hp : (otherRun n).phase = .mbWaitReadable := by simp [otherRun, h]
    have hx : ¬ (0 : Word) &&& Config.tcfg.mboxEmptyMask ≠ 0 := by decide
    rw [step_of_busy (show configWellFormed Config.tcfg = true by decide) rfl (by rw [hp]; decide),
      ctrlStep_of_waitReadable hp, waitReadableStep,
      mmioRead_of_ok _ (show mmioFault Config.tcfg Config.tcfg.mboxStatusAddr.toNat = none by decide), hc,
      readValue_of_stored hm1, afterRead_of_stored hm1]
    refine congrArg Host.Outcome.next ((if_neg hx).trans ?_)
    simp [otherRun, otherEvents, h, h1, setPhase, record]
    decide
  · have h1 : (n + 1) % 2 = 0 := by omega
    have hp : (otherRun n).phase = .mbCheckEcho := by simp [otherRun, h]
    have hx : (0 : Word) ≠ prop8.db := by decide
    rw [step_of_busy (show configWellFormed Config.tcfg = true by decide) rfl (by rw [hp]; decide),
      ctrlStep_of_checkEcho hp, checkEchoStep,
      mmioRead_of_ok _ (show mmioFault Config.tcfg Config.tcfg.mboxReadAddr.toNat = none by decide), hc,
      readValue_of_stored hm2, afterRead_of_stored hm2]
    refine congrArg Host.Outcome.next ((if_pos hx).trans ?_)
    simp [otherRun, otherEvents, h, h1, setPhase, setLat, record]
    decide

/-- A mailbox that stays full, one that stays empty, one whose only echo is 0: as runs, and as controller steps. -/
theorem witness_UnresponsiveMailboxBlocksForever :
    (IsRun fullRun ∧ Turn.reset ∉ (fullRun 0).turns ∧ (fullRun 0).phase = .mbWaitWritable ∧
      ∀ n v, ReadsAt fullRun n (fullRun n).cfg.mboxStatusAddr.toNat v → v &&& (fullRun n).cfg.mboxFullMask ≠ 0) ∧
    (IsRun emptyRun ∧ Turn.reset ∉ (emptyRun 0).turns ∧ (emptyRun 0).phase = .mbWaitReadable ∧
      ∀ n v, ReadsAt emptyRun n (emptyRun n).cfg.mboxStatusAddr.toNat v → v &&& (emptyRun n).cfg.mboxEmptyMask ≠ 0) ∧
    (IsRun otherRun ∧ Turn.reset ∉ (otherRun 0).turns ∧ (otherRun 0).phase = .mbWaitReadable ∧
      ∀ n, ¬ ReadsAt otherRun n (otherRun n).cfg.mboxReadAddr.toNat (otherRun n).lat.db) ∧
    (configWellFormed Config.tcfg = true ∧
      (fullRun 0).mem.wordAt Config.tcfg.mboxStatusAddr.toNat = some 0x80000000 ∧
      (emptyRun 0).mem.wordAt Config.tcfg.mboxStatusAddr.toNat = some 0x40000000 ∧
      (otherRun 0).mem.wordAt Config.tcfg.mboxStatusAddr.toNat = some 0 ∧
      (otherRun 0).mem.wordAt Config.tcfg.mboxReadAddr.toNat = some 0 ∧ (0 : Word) ≠ (otherRun 0).lat.db) := by
  refine ⟨⟨fullRun_isRun, by decide, by decide, fun n v h => ?_⟩, ⟨emptyRun_isRun, by decide, by decide, fun n v h => ?_⟩,
    ⟨otherRun_isRun, by decide, by decide, fun n h => ?_⟩, by decide⟩
  · have e : (0x80000000 : Word) = v := congrArg (fun l => (l.head?.map Event.value).getD 0) h
    subst e
    exact (by decide : (0x80000000 : Word) &&& Config.tcfg.mboxFullMask ≠ 0)
  · have e : (0x40000000 : Word) = v := congrArg (fun l => (l.head?.map Event.value).getD 0) h
    subst e
    exact (by decide : (0x40000000 : Word) &&& Config.tcfg.mboxEmptyMask ≠ 0)
  · have e : (0 : Word) = prop8.db := congrArg (fun l => (l.head?.map Event.value).getD 0) h
    exact absurd e (by decide)

/-! ### Results, fatal conditions, reset -/

theorem witness_OutputsOfTheBlock :
    step (callRun 5) = .next (callRun 6) ∧
      ((callRun 6).resCode, (callRun 6).resData, (callRun 6).resInfo) ≠
        ((callRun 5).resCode, (callRun 5).resData, (callRun 5).resInfo) := ⟨callRun_isRun 5, by decide⟩

/-- MB_CHECK_RESPONSE with a word 1 that is not the flag. -/
def flagRefused : State := busyWith .mbCheckResponse prop8 (with1 0x00081004 0x80000001 [])

/-- A command waiting, and steps that record ERR_RESPONSE, ERR_ILLEGAL and ERR_RANGE. -/
theorem witness_CompleteEndsACommand :
    setWaiting.port = ⟨0x00000E03, 0, 0⟩ :: [] ∧
    ∀ s ∈ ([flagRefused, { State.reset with port := [⟨0x2C, 0, 0⟩] }, { State.reset with port := [⟨0x3603, 0, 0⟩] }] :
      List State), step s = .next (stateAfter 1 s) ∧
        ((stateAfter 1 s).resCode, (stateAfter 1 s).resData, (stateAfter 1 s).resInfo) ≠ (s.resCode, s.resData, s.resInfo) ∧
        ((stateAfter 1 s).resCode = .errRange ∨ (stateAfter 1 s).resCode = .errResponse ∨
          (stateAfter 1 s).resCode = .errIllegal) := by
  refine ⟨rfl, fun s h => ?_⟩
  simp only [List.mem_cons, List.not_mem_nil, or_false] at h
  rcases h with rfl | rfl | rfl <;> exact ⟨step_next (by decide), by decide, by decide⟩

/-- FAULTED with a record, MBOX_HW's move next; and with a reset next. -/
def halted (t : Turn) : State :=
  { State.reset with phase := .faulted, resCode := .fatalWindow, resInfo := 0xFF000000, turns := [t] }

theorem witness_FatalConditionIsSticky :
    (Inv badCompositeWaiting ∧ step badCompositeWaiting = .next (stateAfter 1 badCompositeWaiting) ∧
      badCompositeWaiting.phase ≠ .faulted ∧ (stateAfter 1 badCompositeWaiting).phase = .faulted) ∧
    (halted .absorb).phase = .faulted ∧ (halted .absorb).resCode = .fatalWindow ∧
      step (halted .absorb) = .next (stateAfter 1 (halted .absorb)) ∧
      step (halted .reset) = .next { State.reset with lat := unspecifiedLatches 0, draws := 16 } :=
  ⟨⟨badCompositeWaiting_inv, step_next (by decide), by decide, by decide⟩, by decide, by decide, step_next (by decide), rfl⟩
theorem witness_ResetTouchesOnlyTheBlock :
    configWellFormed (halted .reset).cfg = true ∧ (halted .reset).turns = .reset :: [] := by decide
theorem witness_LatchesAtResetAreNeverObserved : setWaiting.phase = .idle := by decide

end Sys2Proof.Tests
end

section
/-! PROOFS, family 10_state.md: the outputs of the block (R22). Which operations end a command and which keep the result,
by the phase part and the Issue part of each command; and the bits of STATUS. -/

namespace Sys2Proof.Machine

/-! ## Ending a command or keeping the result -/

/-- The three result registers of R22, read together. -/
def State.results (s : State) : ResCode × Word × Word := (s.resCode, s.resData, s.resInfo)

/-- In `t` the command has ended or is fatal, or the result registers still hold `r`. -/
def EndsOrKeeps (r : ResCode × Word × Word) (t : State) : Prop :=
  (t.phase = .idle ∨ t.phase = .faulted) ∨ t.results = r

section
variable {r : ResCode × Word × Word} {s : State}

theorem endsOrKeeps_complete (code : ResCode) (data info : Word) : EndsOrKeeps r (complete code data info s) :=
  .inl (.inl rfl)

theorem endsOrKeeps_raiseFatal (code : ResCode) (info : Word) : EndsOrKeeps r (raiseFatal code info s) :=
  .inl (.inr rfl)

/-- A checked read either raises, or goes on with the results as they were. -/
theorem mmioRead_endsOrKeeps {a : Nat} {k : Word → State → State} (h : s.results = r)
    (hk : ∀ v u, u.results = r → EndsOrKeeps r (k v u)) : EndsOrKeeps r (mmioRead a s k) := by
  rcases mmioRead_cases a s k with ⟨code, _, e⟩ | ⟨_, e⟩ <;> rw [e]
  · exact endsOrKeeps_raiseFatal _ _
  · exact hk _ _ (by simpa [State.results] using h)

/-- A checked write either raises, or goes on with the results as they were. -/
theorem mmioWrite_endsOrKeeps {a : Nat} {v : Word} {k : State → State} (h : s.results = r)
    (hk : ∀ u, u.results = r → EndsOrKeeps r (k u)) : EndsOrKeeps r (mmioWrite a v s k) := by
  rcases mmioWrite_cases a v s k with ⟨code, _, e⟩ | ⟨_, e⟩ <;> rw [e]
  · exact endsOrKeeps_raiseFatal _ _
  · exact hk _ (by simpa [State.results] using h)

/-! ### The Issue steps -/

theorem packIssue_endsOrKeeps (h : s.results = r) : EndsOrKeeps r (packIssue s) := by
  rcases packIssue_cases s with ⟨_, e⟩ | ⟨_, e⟩ <;> rw [e]
  · exact endsOrKeeps_complete _ _ _
  · exact .inr h

theorem unpackIssue_endsOrKeeps (h : s.results = r) : EndsOrKeeps r (unpackIssue s) := by
  rcases unpackIssue_cases s with ⟨_, e⟩ | ⟨_, e⟩ <;> rw [e]
  · exact endsOrKeeps_complete _ _ _
  · exact .inr h

theorem bufferIssue_endsOrKeeps (h : s.results = r) : EndsOrKeeps r (bufferIssue s) := by
  rcases bufferIssue_cases s with ⟨_, e⟩ | ⟨_, e⟩ <;> rw [e]
  · exact endsOrKeeps_raiseFatal _ _
  · exact .inr h

theorem compositeIssue_endsOrKeeps (h : s.results = r) : EndsOrKeeps r (compositeIssue s) := by
  rcases compositeIssue_cases s with ⟨_, e⟩ | ⟨_, e⟩ <;> rw [e]
  · exact endsOrKeeps_raiseFatal _ _
  · exact .inr h

/-- The Issue step of a legal command: latching keeps the results, so its issue part decides. -/
theorem exec_endsOrKeeps {i : Instr} {t : State} (h : exec i s = .next t) : EndsOrKeeps s.results t := by
  cases i with
  | pack pin w maxp base value =>
    simp only [exec, execPack] at h
    split at h <;> cases h
    · exact packIssue_endsOrKeeps rfl
    · exact endsOrKeeps_complete _ _ _
  | unpack pin w maxp base =>
    simp only [exec, execUnpack] at h
    split at h <;> cases h
    · exact unpackIssue_endsOrKeeps rfl
    · exact endsOrKeeps_complete _ _ _
  | gpioSet pin => cases h; exact packIssue_endsOrKeeps rfl
  | gpioClr pin => cases h; exact packIssue_endsOrKeeps rfl
  | gpioPull pin state => cases h; exact packIssue_endsOrKeeps rfl
  | gpioFsel pin function => cases h; exact packIssue_endsOrKeeps rfl
  | gpioAlt3 pin => cases h; exact compositeIssue_endsOrKeeps rfl
  | gpioAlt5 pin => cases h; exact compositeIssue_endsOrKeeps rfl
  | bufWr index value => cases h; exact bufferIssue_endsOrKeeps rfl
  | bufRd index => cases h; exact bufferIssue_endsOrKeeps rfl
  | bufAddr => cases h; exact endsOrKeeps_complete _ _ _
  | mboxCallFb => cases h; exact .inr rfl
  | mboxCallProp => cases h; exact .inr rfl

/-! ### The controller's steps -/

theorem beginStage1_endsOrKeeps (h : s.results = r) : EndsOrKeeps r (beginStage1 s) := by
  rcases beginStage1_cases s with ⟨_, e⟩ | ⟨_, e⟩ <;> rw [e]
  · exact endsOrKeeps_raiseFatal _ _
  · exact .inr h

theorem fpReadStep_endsOrKeeps (s : State) : EndsOrKeeps s.results (fpReadStep s) := by
  refine mmioRead_endsOrKeeps rfl fun v u hu => ?_
  split
  · exact endsOrKeeps_complete _ _ _
  · exact .inr hu

theorem fpWriteStep_endsOrKeeps (s : State) : EndsOrKeeps s.results (fpWriteStep s) := by
  refine mmioWrite_endsOrKeeps rfl fun u hu => ?_
  split
  · exact beginStage1_endsOrKeeps hu
  · exact endsOrKeeps_complete _ _ _

theorem bufAccessStep_endsOrKeeps (s : State) : EndsOrKeeps s.results (bufAccessStep s) := by
  unfold bufAccessStep
  split <;> exact endsOrKeeps_complete _ _ _

theorem waitWritableStep_endsOrKeeps (s : State) : EndsOrKeeps s.results (waitWritableStep s) := by
  refine mmioRead_endsOrKeeps rfl fun v u hu => ?_
  split <;> exact .inr hu

theorem publishStep_endsOrKeeps (s : State) : EndsOrKeeps s.results (publishStep s) :=
  mmioWrite_endsOrKeeps rfl fun _ hu => .inr hu

theorem waitReadableStep_endsOrKeeps (s : State) : EndsOrKeeps s.results (waitReadableStep s) := by
  refine mmioRead_endsOrKeeps rfl fun v u hu => ?_
  split <;> exact .inr hu

theorem checkEchoStep_endsOrKeeps (s : State) : EndsOrKeeps s.results (checkEchoStep s) := by
  refine mmioRead_endsOrKeeps rfl fun v u hu => ?_
  split <;> exact .inr hu

theorem checkResponseStep_endsOrKeeps (s : State) : EndsOrKeeps s.results (checkResponseStep s) := by
  rw [checkResponseStep, bufRead]
  split <;> exact endsOrKeeps_complete _ _ _

/-- A controller step, in every phase that has one. -/
theorem ctrlStep_endsOrKeeps {t : State} (h : ctrlStep s = .next t) : EndsOrKeeps s.results t := by
  cases hp : s.phase with
  | idle => rw [ctrlStep_of_idle hp] at h; cases h; exact .inr rfl
  | fpRead => rw [ctrlStep_of_fpRead hp] at h; cases h; exact fpReadStep_endsOrKeeps s
  | fpWrite => rw [ctrlStep_of_fpWrite hp] at h; cases h; exact fpWriteStep_endsOrKeeps s
  | bufAccess => rw [ctrlStep_of_bufAccess hp] at h; cases h; exact bufAccessStep_endsOrKeeps s
  | mbWaitWritable => rw [ctrlStep_of_waitWritable hp] at h; cases h; exact waitWritableStep_endsOrKeeps s
  | mbPublish => rw [ctrlStep_of_publish hp] at h; cases h; exact publishStep_endsOrKeeps s
  | mbWaitReadable => rw [ctrlStep_of_waitReadable hp] at h; cases h; exact waitReadableStep_endsOrKeeps s
  | mbCheckEcho => rw [ctrlStep_of_checkEcho hp] at h; cases h; exact checkEchoStep_endsOrKeeps s
  | mbCheckResponse => rw [ctrlStep_of_checkResponse hp] at h; cases h; exact checkResponseStep_endsOrKeeps s
  | faulted => rw [ctrlStep_of_faulted hp] at h; cases h

/-- A controller step that changes the results runs a command: it is neither in IDLE nor in FAULTED. -/
theorem ctrlStep_running_of_results_ne {t : State} (h : ctrlStep s = .next t) (hne : t.results ≠ s.results) :
    s.phase ≠ .idle ∧ s.phase ≠ .faulted := by
  refine ⟨fun hp => ?_, fun hp => ?_⟩
  · rw [ctrlStep_of_idle hp] at h
    cases h
    exact hne rfl
  · rw [ctrlStep_of_faulted hp] at h
    cases h
end

/-- MBOX_HW's write to the buffer leaves the results alone. -/
theorem gpuWriteBuffer_results (i : Nat) (v : Word) (s : State) : (gpuWriteBuffer i v s).results = s.results := by
  unfold gpuWriteBuffer
  split
  · simp [State.results, bufWrite]
  · rfl

/-- R22: a step that changes the results is a reset, or accepts or runs a command and leaves it ended or fatal. -/
theorem step_results_ne {s t : State} (h : step s = .next t) (hne : t.results ≠ s.results) :
    (∃ ts, s.turns = .reset :: ts) ∨
    (((s.phase = .idle ∧ ∃ c, s.port = c :: t.port) ∨ (s.phase ≠ .idle ∧ s.phase ≠ .faulted)) ∧
      (t.phase = .idle ∨ t.phase = .faulted)) := by
  cases (step_shape h).2 with
  | illegal c cs idle waiting _ result =>
    subst result
    exact .inr ⟨.inl ⟨idle, c, waiting⟩, .inl rfl⟩
  | issue c cs i idle waiting _ _ result =>
    obtain ⟨-, -, -, -, hport, -⟩ := exec_keeps result
    have hport : t.port = cs := hport
    have ended := (exec_endsOrKeeps result).resolve_right hne
    exact .inr ⟨.inl ⟨idle, c, hport ▸ waiting⟩, ended⟩
  | ctrl _ result =>
    have running := ctrlStep_running_of_results_ne result hne
    have ended := (ctrlStep_endsOrKeeps result).resolve_right hne
    exact .inr ⟨.inr running, ended⟩
  | answer a v ts _ result => subst result; exact absurd rfl hne
  | absorb ts _ result => subst result; exact absurd rfl hne
  | gpuWrite i v ts _ result => subst result; exact absurd (gpuWriteBuffer_results i v _) hne
  | reset ts turn _ => exact .inl ⟨ts, turn⟩

/-! ## BUSY, FAULT and STATUS -/

theorem busy_iff (s : State) : s.busy = true ↔ s.phase ≠ .idle ∧ s.phase ≠ .faulted := by
  simp [State.busy]

theorem faultFlag_iff (s : State) : s.faultFlag = true ↔ s.phase = .faulted := by
  simp [State.faultFlag]

/-- Every bit of STATUS (R22). -/
theorem status_getLsbD (s : State) (k : Nat) :
    s.status.getLsbD k =
      if k = 0 then s.busy else if k = 1 then s.faultFlag else if k < 4 then false
      else if k < 8 then s.resCode.bits.getLsbD (k - 4) else false := by
  simp only [State.status, BitVec.getLsbD_append, BitVec.getLsbD_ofBool, BitVec.getLsbD_zero]
  match k with
  | 0 | 1 | 2 | 3 => simp
  | k + 4 => simp [show k + 4 < 8 ↔ k < 4 by omega]

theorem status_resCode (s : State) : s.status.extractLsb' 4 4 = s.resCode.bits := by
  refine BitVec.eq_of_getLsbD_eq fun i hi => ?_
  rw [BitVec.getLsbD_extractLsb', status_getLsbD, if_neg (by omega), if_neg (by omega), if_neg (by omega),
    if_pos (by omega), Nat.add_sub_cancel_left, decide_eq_true hi, Bool.true_and]

theorem status_getLsbD_unused (s : State) {k : Nat} (hk : k = 2 ∨ k = 3 ∨ 8 ≤ k) : s.status.getLsbD k = false := by
  rcases hk with rfl | rfl | hk
  · exact status_getLsbD s 2
  · exact status_getLsbD s 3
  · rw [status_getLsbD, if_neg (by omega), if_neg (by omega), if_neg (by omega), if_neg (by omega)]

/-- Settles O54: a change of results goes back to the shape of the step, the flags to the phase, STATUS to its bits. -/
theorem outputsOfTheBlock : Obligations.OutputsOfTheBlock :=
  ⟨fun _ _ h hne => step_results_ne h hne,
   fun s => ⟨busy_iff s, faultFlag_iff s, status_getLsbD s 0, status_getLsbD s 1, status_resCode s,
     fun _ hk => status_getLsbD_unused s hk⟩,
   rfl, rfl, rfl, rfl, rfl⟩

end Sys2Proof.Machine
end

section
/-! PROOFS, family 20_memory.md: the checked register access (R62, R63) and MBOX_HW's writes to the buffer (R72). What a
step that records an access is, said once. -/

namespace Sys2Proof.Machine

/-! ## The window (R63) -/

theorem inWindow_iff {c : Config} {a : Nat} :
    inWindow c a = true ↔ c.peripheralBase.toNat ≤ a ∧ a ≤ c.peripheralEnd.toNat := by
  simp [inWindow]

/-- The comparison is on the exact address: nothing from 2^32 on is inside. -/
theorem inWindow_of_ge {c : Config} {a : Nat} (h : 2 ^ 32 ≤ a) : inWindow c a = false :=
  Bool.eq_false_iff.2 fun hw => Nat.not_lt.2 h (inWindow_lt hw)

/-! ## MBOX_HW's write of a buffer word (R72) -/

theorem callInFlight_iff {s : State} :
    callInFlight s = true ↔ s.phase = .mbWaitReadable ∨ s.phase = .mbCheckEcho ∨ s.phase = .mbCheckResponse := by
  simp [callInFlight, or_assoc]

theorem inBuffer_bufWordAddr {c : Config} {i : Nat} (h : i < c.bufWords) : inBuffer c (bufWordAddr c i) = true := by
  simpa [inBuffer, bufWordAddr] using h

/-- A word in bounds is kept in memory (R66 (g)). -/
theorem storesAt_bufWordAddr {s : State} {i : Nat} (h : i < s.cfg.bufWords) :
    storesAt (bufWordAddr s.cfg i) s = true := by
  simp [storesAt, inBuffer_bufWordAddr h]

theorem gpuWriteBuffer_of_enabled {i : Nat} {s : State} (v : Word) (hp : callInFlight s = true)
    (hi : i < s.cfg.bufWords) :
    gpuWriteBuffer i v s = memWrite .mboxHw .buffer (bufWordAddr s.cfg i) v s := if_pos ⟨hp, hi⟩

theorem gpuWriteBuffer_of_disabled {i : Nat} {s : State} (v : Word)
    (h : ¬ (callInFlight s = true ∧ i < s.cfg.bufWords)) : gpuWriteBuffer i v s = s := if_neg h

theorem step_of_gpuWrite {s : State} {i : Nat} {v : Word} {ts : List Turn} (hc : configWellFormed s.cfg = true)
    (ht : s.turns = .gpuWrite i v :: ts) : step s = .next (gpuWriteBuffer i v { s with turns := ts }) := by
  simp [step, hc, nextTurn, ht, takeTurn]

/-! ## A step that records an access (R60) -/

/-- An access a controller step records is the controller's, and a register access passed the checks of R62. -/
theorem CtrlAccess.recorded {s t : State} {e : Event} (h : CtrlAccess s t) (he : t.events = e :: s.events) :
    e.performer = .ctrl ∧ (e.space = .register → mmioFault s.cfg e.addr = Option.none) := by
  cases h with
  | none events _ _ => exact absurd (he.symm.trans events) (List.cons_ne_self _ _)
  | read sp a events _ _ place =>
    obtain ⟨rfl, -⟩ := List.cons.inj (he.symm.trans events)
    rcases place with ⟨_, hm⟩ | ⟨hsp, _⟩
    · exact ⟨rfl, fun _ => hm⟩
    · exact ⟨rfl, fun hr => nomatch hsp.symm.trans hr⟩
  | write sp a v events _ _ place =>
    obtain ⟨rfl, -⟩ := List.cons.inj (he.symm.trans events)
    rcases place with ⟨_, hm, _⟩ | ⟨hsp, _⟩
    · exact ⟨rfl, fun _ => hm⟩
    · exact ⟨rfl, fun hr => nomatch hsp.symm.trans hr⟩

/-- An access MBOX_HW's move records is its write of a buffer word in bounds, with a call in flight. -/
theorem gpuWriteBuffer_recorded {i : Nat} {v : Word} {s : State} {e : Event}
    (he : (gpuWriteBuffer i v s).events = e :: s.events) :
    (callInFlight s = true ∧ i < s.cfg.bufWords) ∧ e = ⟨.mboxHw, .write, .buffer, bufWordAddr s.cfg i, v⟩ := by
  by_cases h : callInFlight s = true ∧ i < s.cfg.bufWords
  · rw [gpuWriteBuffer_of_enabled v h.1 h.2, memWrite_events] at he
    exact ⟨h, (List.cons.inj he).1.symm⟩
  · rw [gpuWriteBuffer_of_disabled v h] at he
    exact absurd he.symm (List.cons_ne_self _ _)

/-- A step that records an access is the controller's, the checks of R62 passed, or MBOX_HW's during a call: an Issue,
the environment's other moves and a reset record nothing. -/
theorem step_recorded {s t : State} {e : Event} (h : step s = .next t) (he : t.events = e :: s.events) :
    (e.performer = .ctrl ∧ (e.space = .register → mmioFault s.cfg e.addr = none)) ∨
    (callInFlight s = true ∧ ∃ i v ts, s.turns = .gpuWrite i v :: ts ∧ i < s.cfg.bufWords ∧
      e = ⟨.mboxHw, .write, .buffer, bufWordAddr s.cfg i, v⟩) := by
  have absurd_of_kept (hk : t.events = s.events) : False := List.cons_ne_self _ _ (he.symm.trans hk)
  cases (step_shape h).2 with
  | illegal _ _ _ _ _ result => subst result; exact (absurd_of_kept rfl).elim
  | issue _ _ _ _ _ _ _ result =>
    obtain ⟨-, -, -, -, -, -, -, hevents⟩ := exec_keeps result
    exact (absurd_of_kept hevents).elim
  | ctrl _ result => exact .inl ((ctrlStep_access result).recorded he)
  | answer _ _ _ _ result => subst result; exact (absurd_of_kept rfl).elim
  | absorb _ _ result => subst result; exact (absurd_of_kept rfl).elim
  | gpuWrite i v ts turn result =>
    subst result
    obtain ⟨⟨hp, hi⟩, e_eq⟩ := gpuWriteBuffer_recorded he
    exact .inr ⟨hp, i, v, ts, turn, hi, e_eq⟩
  | reset _ _ result => subst result; exact (absurd_of_kept rfl).elim

/-- Every register access the controller records is at an aligned address inside the window. -/
theorem step_register_access {s t : State} {e : Event} (h : step s = .next t) (he : t.events = e :: s.events)
    (hperf : e.performer = .ctrl) : e.space = .register → e.addr % 4 = 0 ∧ inWindow s.cfg e.addr = true := by
  rcases step_recorded h he with ⟨_, hm⟩ | ⟨_, i, v, ts, _, _, rfl⟩
  · exact fun hsp => mmioFault_eq_none.1 (hm hsp)
  · cases hperf

/-! ## The obligations -/

/-- Settles O16: a recorded register access passed both checks, and each outcome of the checks decides the access. -/
theorem mmioChecksAlignmentThenWindow : Obligations.MmioChecksAlignmentThenWindow := by
  refine ⟨fun s t e h he hperf hsp => ?_, fun s a v k k' =>
    ⟨inWindow_iff, inWindow_of_ge, fun ha => ?_, fun ha hw => ?_, fun ha hw => ?_⟩⟩
  · obtain ⟨haligned, hw⟩ := step_register_access h he hperf hsp
    exact ⟨haligned, inWindow_iff.1 hw⟩
  · have hm : mmioFault s.cfg a = some .fatalAlign := mmioFault_of_misaligned ha
    exact ⟨mmioRead_of_fault k hm, mmioWrite_of_fault k' hm⟩
  · have hm : mmioFault s.cfg a = some .fatalWindow := mmioFault_of_outside ha hw
    exact ⟨mmioRead_of_fault k hm, mmioWrite_of_fault k' hm⟩
  · have hm : mmioFault s.cfg a = none := mmioFault_eq_none.2 ⟨ha, hw⟩
    exact ⟨mmioRead_of_ok k hm, mmioWrite_of_ok k' hm⟩

/-- Settles O40: MBOX_HW's move is one memory write where R72 lets it, the identity elsewhere, and no other step records a
write of MBOX_HW. -/
theorem gpuWritesOnlyDuringACall : Obligations.GpuWritesOnlyDuringACall := by
  refine ⟨fun s i v ts hc ht => ⟨fun hp hi => ?_, fun hp t h => ?_⟩, fun s t e h he hperf => ?_⟩
  · have hflight : callInFlight { s with turns := ts } = true := callInFlight_iff.2 hp
    have hstep := step_of_gpuWrite hc ht
    rw [gpuWriteBuffer_of_enabled v hflight hi, memWrite_eq, memWrite_inbox] at hstep
    exact ⟨_, hstep, memWrite_wordAt_same _ _ _ _ _ (storesAt_bufWordAddr hi),
      fun b hb => memWrite_byteAt_outside _ _ _ _ _ hb⟩
  · have hflight : ¬ callInFlight { s with turns := ts } = true := fun hf => hp (callInFlight_iff.1 hf)
    rw [step_of_gpuWrite hc ht, gpuWriteBuffer_of_disabled v fun hf => hflight hf.1] at h
    cases h
    exact ⟨rfl, rfl, rfl⟩
  · rcases step_recorded h he with ⟨hctrl, _⟩ | ⟨hflight, _⟩
    · exact nomatch hctrl.symm.trans hperf
    · exact callInFlight_iff.1 hflight

end Sys2Proof.Machine
end

section
/-! PROOFS, family 30_encoding.md: which CMD words are illegal (R93-R95) and what the doorbell is (R97). A CMD is judged by
the kind of its opcode: for each kind there is one condition on the fields under which the decoder answers a command, no
clause of R95 holds and one row of R93 admits the word. -/

namespace Sys2Proof

open Sys2Proof.Claims

/-! ## A CMD word by its fields (R91) -/

/-- A word is a match of R93 exactly when its fields are: OP and CH as given, every other field 0. -/
theorem eq_cmdWord_iff {x : Word} {op ch : BitVec 4} : x = cmdWord op ch 0 0 0 ↔
    (rsvOf x = 0 ∧ opOf x = op) ∧ chOf x = ch ∧ pinOf x = 0 ∧ widthOf x = 0 ∧ maxpOf x = 0 := by
  constructor
  · rintro rfl
    exact ⟨⟨rsvOf_cmdWord .., opOf_cmdWord ..⟩, chOf_cmdWord .., pinOf_cmdWord .., widthOf_cmdWord .., maxpOf_cmdWord ..⟩
  · rintro ⟨⟨hrsv, hop⟩, hch, hpin, hw, hmaxp⟩
    rw [← cmdWord_of_fields hrsv, hop, hch, hpin, hw, hmaxp]

/-- Masking a word and comparing it with a match of R93 is doing so field by field. -/
theorem and_eq_cmdWord_iff {x mask : Word} {op ch : BitVec 4} : x &&& mask = cmdWord op ch 0 0 0 ↔
    (rsvOf x &&& rsvOf mask = 0 ∧ opOf x &&& opOf mask = op) ∧ chOf x &&& chOf mask = ch ∧
      pinOf x &&& pinOf mask = 0 ∧ widthOf x &&& widthOf mask = 0 ∧ maxpOf x &&& maxpOf mask = 0 := by
  rw [eq_cmdWord_iff]
  simp only [rsvOf, maxpOf, widthOf, pinOf, chOf, opOf, BitVec.extractLsb'_and]

/-! ## The rows of R93 by their fields -/

/-- A row of PACK and UNPACK: PIN, W and MAXPIN are free, W is 1 to 32. -/
def packerRow (op : BitVec 4) : Word × Word × Bool := (0xC00000FF, cmdWord op 0 0 0 0, true)

/-- A row of the GPIO commands: PIN is free. -/
def gpioRow (op : BitVec 4) : Word × Word × Bool := (0xFFFF00FF, cmdWord op 0 0 0 0, false)

/-- A row without a free bit: the buffer commands and the two channels of MBOX.CALL. -/
def fixedRow (op ch : BitVec 4) : Word × Word × Bool := (0xFFFFFFFF, cmdWord op ch 0 0 0, false)

/-- The table of R93, its rows by kind. -/
theorem opcodeRows_eq : opcodeRows =
    [packerRow 1, packerRow 2, gpioRow 3, gpioRow 4, gpioRow 5, gpioRow 6, gpioRow 7, gpioRow 8,
      fixedRow 9 0, fixedRow 10 0, fixedRow 11 0, fixedRow 12 1, fixedRow 12 8] := by decide

theorem and_of_eq_allOnes {n : Nat} {x m : BitVec n} (h : m = BitVec.allOnes n) : x &&& m = x := by
  rw [h, BitVec.and_allOnes]

section
variable {cmd : Word}

@[simp] theorem rowAdmits_packerRow {op : BitVec 4} : rowAdmits cmd (packerRow op) = true ↔
    (rsvOf cmd = 0 ∧ opOf cmd = op) ∧ chOf cmd = 0 ∧ widthLegal (widthOf cmd) = true := by
  simp only [rowAdmits, packerRow, Bool.and_eq_true, beq_iff_eq, and_eq_cmdWord_iff]
  simp [rsvOf, maxpOf, widthOf, pinOf, chOf, opOf, and_of_eq_allOnes, and_assoc]

@[simp] theorem rowAdmits_gpioRow {op : BitVec 4} : rowAdmits cmd (gpioRow op) = true ↔
    (rsvOf cmd = 0 ∧ opOf cmd = op) ∧ chOf cmd = 0 ∧ widthOf cmd = 0 ∧ maxpOf cmd = 0 := by
  simp only [rowAdmits, gpioRow, Bool.and_eq_true, beq_iff_eq, and_eq_cmdWord_iff]
  simp [rsvOf, maxpOf, widthOf, pinOf, chOf, opOf, and_of_eq_allOnes]

@[simp] theorem rowAdmits_fixedRow {op ch : BitVec 4} : rowAdmits cmd (fixedRow op ch) = true ↔
    (rsvOf cmd = 0 ∧ opOf cmd = op) ∧ chOf cmd = ch ∧ pinOf cmd = 0 ∧ widthOf cmd = 0 ∧ maxpOf cmd = 0 := by
  simp only [rowAdmits, fixedRow, Bool.and_eq_true, beq_iff_eq, and_eq_cmdWord_iff]
  simp [rsvOf, maxpOf, widthOf, pinOf, chOf, opOf, and_of_eq_allOnes]
end

/-! ## Legality (R94, R95): the decoder, the clauses and the table, by kind of opcode -/

/-- R95 (c) is the negation of the width check. -/
theorem widthLegal_eq_false {w : BitVec 6} : widthLegal w = false ↔ w = 0#6 ∨ 32 < w.toNat := by
  rw [widthLegal, BitVec.toNat_eq]
  simp
  omega

/-- Whether the decoder answers a command. -/
def Decoded.isLegal : Decoded → Bool
  | .legal _ => true
  | .illegal _ => false

@[simp] theorem Decoded.isLegal_legal (i : Instr) : (Decoded.legal i).isLegal = true := rfl
@[simp] theorem Decoded.isLegal_illegal (r : IllegalReason) : (Decoded.illegal r).isLegal = false := rfl

theorem Decoded.exists_legal_iff {d : Decoded} : (∃ i, d = .legal i) ↔ d.isLegal = true := by
  cases d <;> simp

theorem Decoded.exists_illegal_iff {d : Decoded} : (∃ r, d = .illegal r) ↔ d.isLegal = false := by
  cases d <;> simp

section
variable {cmd : Word} {i : Instr}

theorem decodePacker_isLegal :
    (decodePacker cmd i).isLegal = true ↔ chOf cmd = 0 ∧ widthLegal (widthOf cmd) = true := by
  unfold decodePacker
  split_ifs <;> simp_all

theorem decodeGpio_isLegal :
    (decodeGpio cmd i).isLegal = true ↔ chOf cmd = 0 ∧ widthOf cmd = 0 ∧ maxpOf cmd = 0 := by
  unfold decodeGpio
  split_ifs <;> simp_all

theorem decodeBuffer_isLegal : (decodeBuffer cmd i).isLegal = true ↔
    chOf cmd = 0 ∧ pinOf cmd = 0 ∧ widthOf cmd = 0 ∧ maxpOf cmd = 0 := by
  unfold decodeBuffer
  split_ifs <;> simp_all

theorem decodeMboxCall_isLegal : (decodeMboxCall cmd).isLegal = true ↔
    (chOf cmd = 1 ∨ chOf cmd = 8) ∧ pinOf cmd = 0 ∧ widthOf cmd = 0 ∧ maxpOf cmd = 0 := by
  unfold decodeMboxCall chFramebuffer chProperty
  split_ifs <;> simp_all
end

/-- On this CMD the decoder answers a command, the clauses of R95 fail and one row of R93 admits it exactly when `p` holds;
otherwise no row does. -/
structure LegalWhen (cmd opa opb : Word) (p : Prop) [Decidable p] : Prop where
  decoded : (decode cmd opa opb).isLegal = true ↔ p
  clauses : IllegalClauses cmd ↔ ¬ p
  rows : opcodeRows.countP (rowAdmits cmd) = if p then 1 else 0

section
variable {cmd : Word} (opa opb : Word)

theorem legalWhen_of_rsv (hr : rsvOf cmd ≠ 0#2) : LegalWhen cmd opa opb False where
  decoded := by simp [decode, hr]
  clauses := by simp [IllegalClauses, hr]
  rows := by simp [opcodeRows_eq, hr]

variable (hr : rsvOf cmd = 0)
include hr

theorem legalWhen_of_reserved (h : opOf cmd = 0 ∨ opOf cmd = 13 ∨ opOf cmd = 14 ∨ opOf cmd = 15) :
    LegalWhen cmd opa opb False where
  decoded := by rcases h with h | h | h | h <;> simp +decide [decode, hr, h]
  clauses := by simpa [IllegalClauses] using .inl h
  rows := by rcases h with h | h | h | h <;> simp [opcodeRows_eq, h]

theorem legalWhen_of_packer (h : opOf cmd = 1 ∨ opOf cmd = 2) :
    LegalWhen cmd opa opb (chOf cmd = 0 ∧ widthLegal (widthOf cmd) = true) where
  decoded := by rcases h with h | h <;> simp +decide [decode, hr, h, decodePacker_isLegal]
  clauses := by rcases h with h | h <;> simp [IllegalClauses, h, hr, ← widthLegal_eq_false, -not_and, not_and_or]
  rows := by rcases h with h | h <;> simp [opcodeRows_eq, List.countP_cons, h, hr]

theorem legalWhen_of_gpio
    (h : opOf cmd = 3 ∨ opOf cmd = 4 ∨ opOf cmd = 5 ∨ opOf cmd = 6 ∨ opOf cmd = 7 ∨ opOf cmd = 8) :
    LegalWhen cmd opa opb (chOf cmd = 0 ∧ widthOf cmd = 0 ∧ maxpOf cmd = 0) where
  decoded := by rcases h with h | h | h | h | h | h <;> simp +decide [decode, hr, h, decodeGpio_isLegal]
  clauses := by rcases h with h | h | h | h | h | h <;> simp [IllegalClauses, h, hr, -not_and, not_and_or]
  rows := by rcases h with h | h | h | h | h | h <;> simp [opcodeRows_eq, List.countP_cons, h, hr]

theorem legalWhen_of_buffer (h : opOf cmd = 9 ∨ opOf cmd = 10 ∨ opOf cmd = 11) :
    LegalWhen cmd opa opb (chOf cmd = 0 ∧ pinOf cmd = 0 ∧ widthOf cmd = 0 ∧ maxpOf cmd = 0) where
  decoded := by rcases h with h | h | h <;> simp +decide [decode, hr, h, decodeBuffer_isLegal]
  clauses := by rcases h with h | h | h <;> simp [IllegalClauses, h, hr, -not_and, not_and_or]
  rows := by rcases h with h | h | h <;> simp [opcodeRows_eq, List.countP_cons, h, hr]

theorem legalWhen_of_mboxCall (h : opOf cmd = 12) :
    LegalWhen cmd opa opb
      ((chOf cmd = 1 ∨ chOf cmd = 8) ∧ pinOf cmd = 0 ∧ widthOf cmd = 0 ∧ maxpOf cmd = 0) where
  decoded := by simp +decide [decode, hr, h, decodeMboxCall_isLegal]
  clauses := by simp [IllegalClauses, h, hr, -not_and, not_and_or, or_comm]
  rows := by by_cases framebuffer : chOf cmd = 1#4 <;> simp [opcodeRows_eq, List.countP_cons, h, hr, framebuffer]
end

/-- Under whatever condition a CMD is legal, the three readings agree. -/
theorem LegalWhen.agree {cmd opa opb : Word} {p : Prop} [Decidable p] (h : LegalWhen cmd opa opb p) :
    ((decode cmd opa opb).isLegal = false ↔ IllegalClauses cmd) ∧
      (opcodeRows.filter (rowAdmits cmd)).length = (decode cmd opa opb).isLegal.toNat := by
  rw [h.clauses, ← List.countP_eq_length_filter, h.rows, ← Bool.not_eq_true, h.decoded]
  by_cases hp : p
  · simp [hp, h.decoded.2 hp]
  · simp [hp, Bool.eq_false_iff.2 (mt h.decoded.1 hp)]

/-- Every opcode is of one of the five kinds. -/
theorem opcode_kinds : ∀ op : BitVec 4, (op = 0 ∨ op = 13 ∨ op = 14 ∨ op = 15) ∨ (op = 1 ∨ op = 2) ∨
    (op = 3 ∨ op = 4 ∨ op = 5 ∨ op = 6 ∨ op = 7 ∨ op = 8) ∨ (op = 9 ∨ op = 10 ∨ op = 11) ∨ op = 12 := by
  decide

/-- The decoder's answer is the clauses' and the table's, for every CMD: a CMD is of one row of R93 or of none. -/
theorem decode_agrees_with_clauses_and_rows (cmd opa opb : Word) :
    ((decode cmd opa opb).isLegal = false ↔ IllegalClauses cmd) ∧
      (opcodeRows.filter (rowAdmits cmd)).length = (decode cmd opa opb).isLegal.toNat := by
  by_cases hr : rsvOf cmd = 0
  · rcases opcode_kinds (opOf cmd) with reserved | packer | gpio | buffer | mboxCall
    · exact (legalWhen_of_reserved opa opb hr reserved).agree
    · exact (legalWhen_of_packer opa opb hr packer).agree
    · exact (legalWhen_of_gpio opa opb hr gpio).agree
    · exact (legalWhen_of_buffer opa opb hr buffer).agree
    · exact (legalWhen_of_mboxCall opa opb hr mboxCall).agree
  · exact (legalWhen_of_rsv opa opb hr).agree

end Sys2Proof

namespace Sys2Proof.Machine

open Sys2Proof.Claims

/-- The accepting step of an illegal CMD in IDLE. -/
theorem issue_of_illegal {c : Command} {s : State} (h : (decodeCommand c).isLegal = false) (hp : s.phase = .idle) :
    issue c s = .next { s with resCode := .errIllegal, resData := 0, resInfo := c.cmd } := by
  obtain ⟨r, hr⟩ := Decoded.exists_illegal_iff.2 h
  simp [issue, hr, completeIllegal, complete, hp]

/-- Settles O4: by kind of opcode, the decoder, the clauses and the table make a CMD legal under one condition. -/
theorem illegalExactlyByTheClauses : Obligations.IllegalExactlyByTheClauses := by
  intro cmd opa opb
  obtain ⟨hclauses, hrows⟩ := decode_agrees_with_clauses_and_rows cmd opa opb
  rw [Decoded.exists_legal_iff, Decoded.exists_illegal_iff, ← List.length_eq_zero_iff, hrows]
  exact ⟨hclauses, Bool.toNat_eq_one.symm, Bool.toNat_eq_zero.symm, fun s h hp => issue_of_illegal (hclauses.2 h) hp⟩

/-! ## The doorbell (R97) -/

/-- Bits [31:4]: the mask keeps them and the channel id has none. -/
theorem doorbell_high (c : Config) (ch : BitVec 4) : (doorbell c ch).extractLsb' 4 28 = c.bufAddr.extractLsb' 4 28 := by
  have channel : (ch.setWidth 32).extractLsb' 4 28 = 0#28 := by
    ext i hi
    simp
  rw [doorbell, BitVec.extractLsb'_or, BitVec.extractLsb'_and, channel, BitVec.or_zero, and_of_eq_allOnes (by decide)]

/-- Bits [3:0]: the mask clears them and the channel id fills them. -/
theorem doorbell_low (c : Config) (ch : BitVec 4) : (doorbell c ch).extractLsb' 0 4 = ch := by
  have channel : (ch.setWidth 32).extractLsb' 0 4 = ch := by
    rw [← BitVec.setWidth_eq_extractLsb' (by omega), BitVec.setWidth_setWidth_of_le _ (by omega), BitVec.setWidth_eq]
  have mask : (0xFFFFFFF0 : Word).extractLsb' 0 4 = 0#4 := by decide
  rw [doorbell, BitVec.extractLsb'_or, BitVec.extractLsb'_and, channel, mask, BitVec.and_zero, BitVec.zero_or]

/-- Under 16-byte alignment the two parts of the doorbell add up. -/
theorem doorbell_toNat {c : Config} (ch : BitVec 4) (h : c.bufAddr.toNat % 16 = 0) :
    (doorbell c ch).toNat = c.bufAddr.toNat + ch.toNat := by
  have high := congrArg BitVec.toNat (doorbell_high c ch)
  have low := congrArg BitVec.toNat (doorbell_low c ch)
  simp only [BitVec.extractLsb'_toNat, Nat.shiftRight_eq_div_pow] at high low
  omega

/-- Where its register is admitted, MB_PUBLISH records one access: the write of `L.db` to MBOX_WRITE_ADDR. -/
theorem publishStep_events {s : State} (hm : mmioFault s.cfg s.cfg.mboxWriteAddr.toNat = none) :
    (publishStep s).events = writeEvent s.cfg.mboxWriteAddr.toNat s.lat.db :: s.events := by
  simp [publishStep, mmioWrite_of_ok _ hm, writeEvent]

/-- Settles O41: the invariant makes the word written the doorbell of the call's channel, and the doorbell is split at
bit 4. -/
theorem doorbellIsAddressAndChannel : Obligations.DoorbellIsAddressAndChannel := by
  refine ⟨fun s t hinv hc hp h => ?_, fun c ch => ⟨rfl, doorbell_high c ch, doorbell_low c ch, doorbell_toNat ch⟩⟩
  have hcall : CallLatchesOk s := hinv.call (by rw [hp]; rfl)
  obtain ⟨-, -, hwrite⟩ := configWellFormed_mailbox hc
  rw [ctrlStep_of_publish hp] at h
  cases h
  rw [publishStep_events hwrite, hcall.doorbell]

end Sys2Proof.Machine
end

section
/-! PROOFS, family 40_field_packer.md: the geometry of a field (R120), the range check (R121), merge and extract bit by bit
(R122, R123), and PACK and UNPACK run to their end (R124-R128). The read-modify-write of R125 and R126 is one equation on
the state FP_READ starts from, whatever command started it. -/

namespace Sys2Proof.Machine

open Sys2Proof.Claims

/-! ## Geometry (R120) -/

theorem fieldsPerReg_pos {w : Nat} (h1 : 1 ≤ w) (h2 : w ≤ 32) : 1 ≤ fieldsPerReg w :=
  (Nat.le_div_iff_mul_le h1).2 (by omega)

/-- A pin's field ends below the spare top bits of its register. -/
theorem fieldShift_add_le_used {p w : Nat} (h1 : 1 ≤ w) (h2 : w ≤ 32) :
    fieldShift p w + w ≤ fieldsPerReg w * w := by
  have slot : p % fieldsPerReg w + 1 ≤ fieldsPerReg w := Nat.mod_lt _ (fieldsPerReg_pos h1 h2)
  calc fieldShift p w + w = (p % fieldsPerReg w + 1) * w := (Nat.succ_mul _ _).symm
    _ ≤ fieldsPerReg w * w := Nat.mul_le_mul_right _ slot

/-- A number of `w` bits, shifted to a field inside the word, stays below 2^32. -/
theorem mul_two_pow_lt {n shift w : Nat} (hn : n ≤ 2 ^ w - 1) (h : shift + w ≤ 32) : n * 2 ^ shift < 2 ^ 32 := by
  have hlt : n < 2 ^ w := Nat.lt_of_le_pred (Nat.two_pow_pos w) hn
  calc n * 2 ^ shift < 2 ^ w * 2 ^ shift := Nat.mul_lt_mul_of_pos_right hlt (Nat.two_pow_pos shift)
    _ = 2 ^ (shift + w) := by rw [← Nat.pow_add, Nat.add_comm]
    _ ≤ 2 ^ 32 := Nat.pow_le_pow_right (by decide) h

/-- Settles O17: a pin's slot is below the fields per register, so its field ends within `fpr * w` and within the word. -/
theorem geometryStaysInsideTheWord : Obligations.GeometryStaysInsideTheWord := by
  intro p w base h1 h2
  have inside : fieldShift p w + w ≤ 32 := fieldShift_add_le p w h1 h2
  exact ⟨fieldsPerReg_pos h1 h2, Nat.div_le_self 32 w, rfl, rfl, rfl, rfl, by omega, inside,
    mul_two_pow_lt le_rfl inside, fieldShift_add_le_used h1 h2⟩

/-! ## The range check (R121) -/

/-- The two error bits add up. -/
theorem rangeCheck_toNat (pin : BitVec 8) (v : Word) (w : BitVec 6) (maxp : BitVec 8) :
    (rangeCheck pin v w maxp).toNat =
      (if maxp.toNat < pin.toNat then 1 else 0) + (if fieldMask w.toNat < v.toNat then 2 else 0) := by
  by_cases hp : maxp.toNat < pin.toNat <;> by_cases hv : fieldMask w.toNat < v.toNat <;>
    simp [rangeCheck, pinBad, valueBad, hp, hv]

theorem widthLegal_iff {w : BitVec 6} : widthLegal w = true ↔ 1 ≤ w.toNat ∧ w.toNat ≤ 32 := by
  simp [widthLegal]

section
variable {pin : BitVec 8} {w : BitVec 6} {maxp : BitVec 8} {base v : Word} {s : State}

/-- PACK on operands out of range ends at Issue. -/
theorem exec_pack_of_bad (hw : widthLegal w = true) (hbad : rangeCheck pin v w maxp ≠ 0) :
    exec (.pack pin w maxp base v) s = .next (complete .errRange 0 (rangeCheck pin v w maxp)
      (latchOpb v (latchOpa base (latchCmd opPack 0 pin w maxp s)))) := by
  change execPack pin w maxp base v s = _
  rw [execPack, if_pos hw, packIssue, if_pos (by exact hbad)]
  rfl

/-- PACK on operands in range starts its read-modify-write. -/
theorem exec_pack_of_ok (hw : widthLegal w = true) (hok : rangeCheck pin v w maxp = 0) :
    exec (.pack pin w maxp base v) s = .next (setPhase .fpRead (setLat
      { geometryLatches s.lat pin w maxp base v with op := opPack, ch := 0, idx := base } s)) := by
  change execPack pin w maxp base v s = _
  rw [execPack, if_pos hw, packIssue, if_neg (by exact not_not.2 hok)]
  rfl

/-- UNPACK on a pin in range starts its read. -/
theorem exec_unpack_of_ok (hw : widthLegal w = true) (hp : pinBad pin maxp = false) :
    exec (.unpack pin w maxp base) s = .next (setPhase .fpRead (setLat
      { geometryLatches s.lat pin w maxp base s.lat.val with op := opUnpack, ch := 0, idx := base } s)) := by
  change execUnpack pin w maxp base s = _
  rw [execUnpack, if_pos hw, unpackIssue, if_neg (by simpa using hp)]
  rfl

end

/-- Settles O19: the two bits of the check, when both are clear, and the Issue step that ends a bad PACK. -/
theorem rangeCheckReportsBothErrors : Obligations.RangeCheckReportsBothErrors :=
  fun p maxp v w => ⟨rangeCheck_toNat p v w maxp, rangeCheck_eq_zero, fun _ _ h1 h2 hbad =>
    ⟨_, exec_pack_of_bad (widthLegal_iff.2 ⟨h1, h2⟩) hbad, rfl, rfl, rfl, rfl, rfl⟩⟩

/-! ## Merge and extract, bit by bit (R122, R123) -/

theorem getLsbD_mask (w k : Nat) : (BitVec.ofNat 32 (2 ^ w - 1)).getLsbD k = (decide (k < 32) && decide (k < w)) := by
  rw [BitVec.getLsbD_ofNat, Nat.testBit_two_pow_sub_one]

/-- A value that fits in `w` bits has no bit from `w` on. -/
theorem getLsbD_of_fits {v : Word} {w k : Nat} (hv : v.toNat ≤ 2 ^ w - 1) (hk : w ≤ k) : v.getLsbD k = false :=
  Nat.testBit_lt_two_pow (calc
    v.toNat < 2 ^ w := Nat.lt_of_le_pred (Nat.two_pow_pos w) hv
    _ ≤ 2 ^ k := Nat.pow_le_pow_right (by decide) hk)

/-- The field's bits of a merged word are the value's, every other bit is the old word's. -/
theorem mergeField_getLsbD {old v : Word} {shift w : Nat} (h : shift + w ≤ 32) (hv : v.toNat ≤ 2 ^ w - 1) (k : Nat) :
    (mergeField old v shift (BitVec.ofNat 32 (2 ^ w - 1))).getLsbD k =
      if shift ≤ k ∧ k < shift + w then v.getLsbD (k - shift) else old.getLsbD k := by
  simp only [mergeField, BitVec.getLsbD_or, BitVec.getLsbD_and, BitVec.getLsbD_not, BitVec.getLsbD_shiftLeft, getLsbD_mask]
  rcases Nat.lt_or_ge k 32 with hk | hk
  · rcases Nat.lt_or_ge k shift with below | above
    · simp [hk, below, Nat.not_le.2 below]
    · rcases Nat.lt_or_ge k (shift + w) with inside | beyond
      · simp [hk, above, inside, Nat.not_lt.2 above, show k - shift < 32 by omega, show k - shift < w by omega]
      · simp [hk, above, Nat.not_lt.2 beyond, getLsbD_of_fits hv (show w ≤ k - shift by omega),
          show ¬ k - shift < w by omega]
  · simp [Nat.not_lt.2 hk, BitVec.getLsbD_of_ge old k hk, show ¬ k < shift + w by omega]

theorem extractField_getLsbD (word : Word) (shift w k : Nat) :
    (extractField word shift (BitVec.ofNat 32 (2 ^ w - 1))).getLsbD k =
      (word.getLsbD (shift + k) && (decide (k < 32) && decide (k < w))) := by
  rw [extractField, BitVec.getLsbD_and, BitVec.getLsbD_ushiftRight, getLsbD_mask]

/-- Extracting a field just merged gives the value back. -/
theorem extractField_mergeField {old v : Word} {shift w : Nat} (h : shift + w ≤ 32) (hv : v.toNat ≤ 2 ^ w - 1) :
    extractField (mergeField old v shift (BitVec.ofNat 32 (2 ^ w - 1))) shift (BitVec.ofNat 32 (2 ^ w - 1)) = v := by
  refine BitVec.eq_of_getLsbD_eq fun k hk => ?_
  rw [extractField_getLsbD, mergeField_getLsbD h hv]
  rcases Nat.lt_or_ge k w with inside | beyond
  · simp [hk, inside]
  · simp [getLsbD_of_fits hv beyond, Nat.not_lt.2 beyond]

/-- Settles O20: bit by bit; both shifted words stay below 2^32. -/
theorem mergeChangesExactlyTheField : Obligations.MergeChangesExactlyTheField :=
  fun _ _ _ _ _ h hv => ⟨rfl, mul_two_pow_lt le_rfl h, mul_two_pow_lt hv h, fun k _ => mergeField_getLsbD h hv k⟩

/-- Settles O21: bit by bit, below and above the field's width. -/
theorem extractInvertsMerge : Obligations.ExtractInvertsMerge :=
  ⟨fun _ _ _ => rfl, fun _ _ _ _ _ h hv => extractField_mergeField h hv⟩

/-! ## Controller steps in a row -/

/-- A command that has ended stays ended. -/
theorem ctrlSteps_of_idle {s : State} (h : s.phase = .idle) (n : Nat) : ctrlSteps n s = .next s := by
  induction n with
  | zero => rfl
  | succ n ih => rw [ctrlSteps, ctrlStep_of_idle h]; exact ih

theorem ctrlSteps_one (s : State) : ctrlSteps 1 s = ctrlStep s := by
  rw [ctrlSteps]
  cases ctrlStep s <;> rfl

theorem ctrlSteps_succ_of_next {s t : State} {n : Nat} (h : ctrlStep s = .next t) :
    ctrlSteps (n + 1) s = ctrlSteps n t := by
  rw [ctrlSteps, h]

theorem runCommand_of_next {i : Instr} {s t : State} {n : Nat} (h : exec i s = .next t) :
    runCommand i n s = ctrlSteps n t := by
  rw [runCommand, h]

/-! ## A field access from its start (R120, R125-R127) -/

section
variable (who : Agent) (sp : Space) (a : Nat) (p : Phase) (l : Latches) (s : State)

@[simp] theorem readValue_setPhase : readValue a (setPhase p s) = readValue a s := rfl
@[simp] theorem readValue_setLat : readValue a (setLat l s) = readValue a s := rfl

@[simp] theorem afterRead_setPhase : afterRead who sp a (setPhase p s) = setPhase p (afterRead who sp a s) := by
  obtain ⟨answers, draws⟩ := afterRead_congr (who := who) (sp := sp) (a := a) (s := setPhase p s) (t := s) rfl rfl rfl
  ext1 <;> simp [answers, draws]

@[simp] theorem afterRead_setLat : afterRead who sp a (setLat l s) = setLat l (afterRead who sp a s) := by
  obtain ⟨answers, draws⟩ := afterRead_congr (who := who) (sp := sp) (a := a) (s := setLat l s) (t := s) rfl rfl rfl
  ext1 <;> simp [answers, draws]

@[simp] theorem afterRmw_mem (new : Word) (m : Memory) : (afterRmw s l a new m).mem = m := rfl
end

section
variable {l : Latches} {s : State} {a : Nat}

/-- The read-modify-write of R125 and R126, for every command whose FP_WRITE is its last step. -/
theorem ctrlSteps_rmw {new : Word} (ha : l.addr.toNat = a) (hm : mmioFault s.cfg a = none) (hu : l.op ≠ opUnpack)
    (hlast : ¬ ((l.op = opGpioAlt3 ∨ l.op = opGpioAlt5) ∧ l.stage = 0))
    (hnew : mergeField (readValue a s) l.val l.shift.toNat l.fmask = new) :
    ctrlSteps 2 (setPhase .fpRead (setLat l s)) =
      .next (afterRmw s l a new (memWrite .ctrl .register a new s).mem) := by
  subst ha hnew
  have hread := (ctrlStep_of_fpRead (s := setPhase .fpRead (setLat l s)) rfl).trans
    (congrArg _ (fpReadStep_of_other hm hu))
  rw [ctrlSteps_succ_of_next hread, ctrlSteps_one, ctrlStep_of_fpWrite (setPhase_phase _ _),
    fpWriteStep_of_last (by simpa using hm) (by simpa using hlast)]
  congr 1
  ext1 <;> simp [afterRmw, drawn, inboxAfter, memWrite_inbox, memWrite_mem, storesAt, trunc32, readEvent, writeEvent]

/-- The read of UNPACK. -/
theorem ctrlSteps_unpack (ha : l.addr.toNat = a) (hm : mmioFault s.cfg a = none) (hu : l.op = opUnpack) :
    ctrlSteps 1 (setPhase .fpRead (setLat l s)) = .next
      (complete .ok (extractField (readValue a s) l.shift.toNat l.fmask) (trunc32 a)
        (setPhase .fpRead (setLat { l with old := readValue a s } (afterRead .ctrl .register a s)))) := by
  subst ha
  rw [ctrlSteps_one, ctrlStep_of_fpRead (setPhase_phase _ _), fpReadStep_of_unpack hm hu, afterRead_setPhase,
    afterRead_setLat]
  rfl
end

/-! ## PACK and UNPACK to their end (R124, R127, R128) -/

section
variable {pin : BitVec 8} {w : BitVec 6} {maxp : BitVec 8} {base v : Word} {s : State}

theorem mmioFault_regOf {c : Config} (hb : base.toNat % 4 = 0)
    (hin : inWindow c (regOf pin.toNat w.toNat base.toNat) = true) :
    mmioFault c (regOf pin.toNat w.toNat base.toNat) = none := by
  refine mmioFault_eq_none.2 ⟨?_, hin⟩
  unfold regOf
  omega

/-- PACK on operands in range, at an admitted register, is the read-modify-write of that register. -/
theorem runCommand_pack (hw : widthLegal w = true) (hok : rangeCheck pin v w maxp = 0)
    (hm : mmioFault s.cfg (regOf pin.toNat w.toNat base.toNat) = none) :
    runCommand (.pack pin w maxp base v) 2 s =
      .next (afterRmw s { geometryLatches s.lat pin w maxp base v with op := opPack, ch := 0, idx := base }
        (regOf pin.toNat w.toNat base.toNat) (mergedWord s pin.toNat w.toNat base.toNat v)
        (memWrite .ctrl .register (regOf pin.toNat w.toNat base.toNat)
          (mergedWord s pin.toNat w.toNat base.toNat v) s).mem) := by
  rw [runCommand_of_next (exec_pack_of_ok hw hok)]
  have notUnpack : opPack ≠ opUnpack := by decide
  have notComposite : ¬ (opPack = opGpioAlt3 ∨ opPack = opGpioAlt5) := by decide
  obtain ⟨h1, h2⟩ := widthLegal_iff.1 hw
  exact ctrlSteps_rmw (addr_toNat pin w.toNat base) hm notUnpack (fun h => notComposite h.1)
    (congrArg (mergeField _ v · _) (shift_toNat pin.toNat w.toNat h1 h2))

/-- Where the register is plain storage, memory then holds the merged word. -/
theorem runCommand_pack_stored {old : Word} (hw : widthLegal w = true) (hok : rangeCheck pin v w maxp = 0)
    (hm : mmioFault s.cfg (regOf pin.toNat w.toNat base.toNat) = none)
    (hold : s.mem.wordAt (regOf pin.toNat w.toNat base.toNat) = some old) :
    ∃ t, runCommand (.pack pin w maxp base v) 2 s = .next t ∧ t.cfg = s.cfg ∧
      t.mem = s.mem.setWord (regOf pin.toNat w.toNat base.toNat)
        (mergeField old v (pin.toNat % (32 / w.toNat) * w.toNat) (BitVec.ofNat 32 (2 ^ w.toNat - 1))) := by
  refine ⟨_, runCommand_pack hw hok hm, rfl, ?_⟩
  have hkept : storesAt (regOf pin.toNat w.toNat base.toNat) s = true := by simp [storesAt, hold]
  rw [afterRmw_mem, memWrite_mem, if_pos hkept, mergedWord, readValue_of_stored hold]

/-- A PACK out of range has ended, whatever number of controller steps follow. -/
theorem runCommand_pack_of_bad (hw : widthLegal w = true) (hbad : rangeCheck pin v w maxp ≠ 0) (n : Nat) :
    runCommand (.pack pin w maxp base v) n s = .next (complete .errRange 0 (rangeCheck pin v w maxp)
      (latchOpb v (latchOpa base (latchCmd opPack 0 pin w maxp s)))) := by
  rw [runCommand_of_next (exec_pack_of_bad hw hbad), ctrlSteps_of_idle (complete_phase ..)]

/-- UNPACK on a pin in range, at an admitted register: the field is the result and memory stays. -/
theorem runCommand_unpack (hw : widthLegal w = true) (hp : pinBad pin maxp = false)
    (hm : mmioFault s.cfg (regOf pin.toNat w.toNat base.toNat) = none) :
    ∃ u, runCommand (.unpack pin w maxp base) 1 s = .next u ∧ u.resCode = .ok ∧
      u.resData = extractField (readValue (regOf pin.toNat w.toNat base.toNat) s)
        (pin.toNat % (32 / w.toNat) * w.toNat) (BitVec.ofNat 32 (2 ^ w.toNat - 1)) ∧ u.mem = s.mem := by
  rw [runCommand_of_next (exec_unpack_of_ok hw hp)]
  obtain ⟨h1, h2⟩ := widthLegal_iff.1 hw
  exact ⟨_, ctrlSteps_unpack (addr_toNat pin w.toNat base) hm rfl, rfl,
    congrArg (extractField _ · _) (shift_toNat pin.toNat w.toNat h1 h2), by simp⟩

end

/-- Settles O26: on plain storage PACK stores the merged word, from which UNPACK extracts the value; a bad PACK has ended
at Issue. -/
theorem packUnpackRoundTrip : Obligations.PackUnpackRoundTrip := by
  intro pin w maxp base v s h1 h2
  have hw : widthLegal w = true := widthLegal_iff.2 ⟨h1, h2⟩
  refine ⟨fun hpin hv hbase hin hram => ?_, fun hbad n => ?_⟩
  · obtain ⟨old, hold⟩ := Option.isSome_iff_exists.1 hram
    have hm : mmioFault s.cfg (regOf pin.toNat w.toNat base.toNat) = none := mmioFault_regOf hbase hin
    have inside : pin.toNat % (32 / w.toNat) * w.toNat + w.toNat ≤ 32 := fieldShift_add_le pin.toNat w.toNat h1 h2
    obtain ⟨t, hpack, hcfg, htmem⟩ := runCommand_pack_stored hw (rangeCheck_eq_zero.2 ⟨hpin, hv⟩) hm hold
    obtain ⟨u, hunpack, hcode, hdata, humem⟩ := runCommand_unpack hw (pinBad_eq_false.2 hpin) (hcfg ▸ hm)
    rw [readValue_of_stored (htmem ▸ Memory.wordAt_setWord_same ..), extractField_mergeField inside hv] at hdata
    rw [← humem] at htmem
    refine ⟨t, u, old, _, hpack, hunpack, hcode, hdata, hold, htmem ▸ Memory.wordAt_setWord_same .., fun k hk => ?_,
      fun b hb => htmem ▸ Memory.byteAt_setWord_outside _ _ hb⟩
    rw [mergeField_getLsbD inside hv, if_neg (by omega)]
  · have hne : rangeCheck pin v w maxp ≠ 0 := fun h => by
      obtain ⟨hp, hv⟩ := rangeCheck_eq_zero.1 h
      unfold fieldMask at hv
      omega
    exact ⟨_, runCommand_pack_of_bad hw hne n, rfl, rfl, rfl, rfl⟩

end Sys2Proof.Machine
end

section
/-! PROOFS, family 41_gpio.md: a single GPIO command is a PACK (R140). After Issue the two commands differ only in the latches
`L.op` and `L.idx`, and no step of a read-modify-write that ends in its FP_WRITE tells them apart: a simulation, one
commuting lemma per phase. -/

namespace Sys2Proof.Machine

/-! ## Relabelling a command -/

/-- The state with the command's opcode and index latch replaced. -/
def relabel (op : BitVec 4) (idx : Word) (s : State) : State := setLat { s.lat with op := op, idx := idx } s

/-- The opcodes whose FP_READ goes on to a write and whose FP_WRITE is their last step (R125, R126). -/
def SingleRmw (op : BitVec 4) : Prop := op ≠ opUnpack ∧ ¬ (op = opGpioAlt3 ∨ op = opGpioAlt5)

/-- A command of such an opcode is between two of its steps, has ended or is fatal. -/
structure SingleRmwRuns (s : State) : Prop where
  op : SingleRmw s.lat.op
  phase : s.phase = .idle ∨ s.phase = .fpRead ∨ s.phase = .fpWrite ∨ s.phase = .faulted

theorem singleRmw_opPack : SingleRmw opPack := ⟨by decide, by decide⟩
theorem singleRmw_opGpioSet : SingleRmw opGpioSet := ⟨by decide, by decide⟩
theorem singleRmw_opGpioClr : SingleRmw opGpioClr := ⟨by decide, by decide⟩
theorem singleRmw_opGpioPull : SingleRmw opGpioPull := ⟨by decide, by decide⟩
theorem singleRmw_opGpioFsel : SingleRmw opGpioFsel := ⟨by decide, by decide⟩

@[simp] theorem memWrite_setLat (who : Agent) (sp : Space) (a : Nat) (v : Word) (l : Latches) (s : State) :
    memWrite who sp a v (setLat l s) = setLat l (memWrite who sp a v s) := by
  rw [memWrite_eq, memWrite_eq who sp a v s, memWrite_mem, memWrite_mem, memWrite_inbox, memWrite_inbox]
  rfl

section
variable {op : BitVec 4} {idx : Word} {s : State}

@[simp] theorem withoutLatches_relabel : (relabel op idx s).withoutLatches = s.withoutLatches := rfl

/-! ## The steps of the two commands commute with relabelling -/

theorem packIssue_relabel : packIssue (relabel op idx s) = relabel op idx (packIssue s) := by
  rw [packIssue, packIssue, apply_ite (relabel op idx)]
  rfl

theorem packIssue_runs (hs : SingleRmw s.lat.op) : SingleRmwRuns (packIssue s) := by
  rcases packIssue_cases s with ⟨_, e⟩ | ⟨_, e⟩ <;> rw [e]
  · exact ⟨hs, .inl rfl⟩
  · exact ⟨hs, .inr (.inl rfl)⟩

/-- FP_READ: the same fault, or the same read and merged word. -/
theorem fpReadStep_relabel (hs : SingleRmw s.lat.op) (hop : SingleRmw op) :
    SingleRmwRuns (fpReadStep s) ∧ fpReadStep (relabel op idx s) = relabel op idx (fpReadStep s) := by
  cases hm : mmioFault s.cfg s.lat.addr.toNat with
  | some code =>
    rw [fpReadStep_of_fault hm, fpReadStep_of_fault (s := relabel op idx s) hm]
    exact ⟨⟨hs, .inr (.inr (.inr rfl))⟩, rfl⟩
  | none =>
    rw [fpReadStep_of_other hm hs.1, fpReadStep_of_other (s := relabel op idx s) hm hop.1, relabel, afterRead_setLat]
    exact ⟨⟨hs, .inr (.inr (.inl rfl))⟩, rfl⟩

/-- FP_WRITE: the same fault, or the same write and end. -/
theorem fpWriteStep_relabel (hs : SingleRmw s.lat.op) (hop : SingleRmw op) :
    SingleRmwRuns (fpWriteStep s) ∧ fpWriteStep (relabel op idx s) = relabel op idx (fpWriteStep s) := by
  cases hm : mmioFault s.cfg s.lat.addr.toNat with
  | some code =>
    rw [fpWriteStep_of_fault hm, fpWriteStep_of_fault (s := relabel op idx s) hm]
    exact ⟨⟨hs, .inr (.inr (.inr rfl))⟩, rfl⟩
  | none =>
    rw [fpWriteStep_of_last hm fun h => hs.2 h.1,
      fpWriteStep_of_last (s := relabel op idx s) hm fun h => hop.2 h.1, relabel, memWrite_setLat]
    refine ⟨⟨?_, .inl rfl⟩, ?_⟩
    · simpa using hs
    · simp [relabel, complete, setLat]

/-- A controller step of the two commands: both go on, in states that differ by the relabelling, or both have halted. -/
theorem ctrlStep_relabel (h : SingleRmwRuns s) (hop : SingleRmw op) :
    (∃ t, SingleRmwRuns t ∧ ctrlStep s = .next t ∧ ctrlStep (relabel op idx s) = .next (relabel op idx t)) ∨
    (∃ r, ctrlStep s = .fault r ∧ ctrlStep (relabel op idx s) = .fault r) := by
  rcases h.phase with hp | hp | hp | hp
  · exact .inl ⟨s, h, ctrlStep_of_idle hp, ctrlStep_of_idle hp⟩
  · obtain ⟨runs, commutes⟩ := fpReadStep_relabel (idx := idx) h.op hop
    exact .inl ⟨_, runs, ctrlStep_of_fpRead hp, (ctrlStep_of_fpRead (s := relabel op idx s) hp).trans (congrArg _ commutes)⟩
  · obtain ⟨runs, commutes⟩ := fpWriteStep_relabel (idx := idx) h.op hop
    exact .inl ⟨_, runs, ctrlStep_of_fpWrite hp, (ctrlStep_of_fpWrite (s := relabel op idx s) hp).trans (congrArg _ commutes)⟩
  · exact .inr ⟨haltFault s, ctrlStep_of_faulted hp, ctrlStep_of_faulted hp⟩

/-- Any number of controller steps: outside the latches the two commands cannot be told apart. -/
theorem ctrlSteps_relabel (h : SingleRmwRuns s) (hop : SingleRmw op) (n : Nat) :
    outcomeWithoutLatches (ctrlSteps n (relabel op idx s)) = outcomeWithoutLatches (ctrlSteps n s) := by
  induction n generalizing s with
  | zero => rfl
  | succ n ih =>
    rcases ctrlStep_relabel (idx := idx) h hop with ⟨t, runs, e, e'⟩ | ⟨r, e, e'⟩ <;> rw [ctrlSteps, ctrlSteps, e, e']
    exact ih runs

end

/-! ## The single GPIO commands (R140) -/

section
variable {pin : BitVec 8} {w : BitVec 6} {base v : Word} {op : BitVec 4} {s : State}

/-- The Issue step every single GPIO command has: the operands of R140's table under its own opcode. -/
def gpioIssue (op : BitVec 4) (pin : BitVec 8) (base : Word) (w : BitVec 6) (v : Word) (s : State) : State :=
  packIssue (loadGpio base w v (latchCmd op 0 pin 0 0 s))

theorem exec_gpioSet : exec (.gpioSet pin) s = .next (gpioIssue opGpioSet pin s.cfg.gpsetBase 1 1 s) := rfl
theorem exec_gpioClr : exec (.gpioClr pin) s = .next (gpioIssue opGpioClr pin s.cfg.gpclrBase 1 1 s) := rfl
theorem exec_gpioPull : exec (.gpioPull pin v) s = .next (gpioIssue opGpioPull pin s.cfg.gppullBase 2 v s) := rfl
theorem exec_gpioFsel : exec (.gpioFsel pin v) s = .next (gpioIssue opGpioFsel pin s.cfg.gpfselBase 3 v s) := rfl

/-- The PACK of the same operands is that Issue step relabelled. -/
theorem exec_pack_eq_gpioIssue (hw : widthLegal w = true) :
    exec (.pack pin w 53 base v) s = .next (relabel opPack base (gpioIssue op pin base w v s)) := by
  change execPack pin w 53 base v s = _
  rw [execPack, if_pos hw, gpioIssue, ← packIssue_relabel]
  rfl

/-- The latches of R140's table after the Issue step, whether it starts the access or ends the command. -/
theorem gpioIssue_latches :
    (gpioIssue op pin base w v s).lat.op = op ∧ (gpioIssue op pin base w v s).lat.base = base ∧
      (gpioIssue op pin base w v s).lat.w = w ∧ (gpioIssue op pin base w v s).lat.maxp = 53 ∧
      (gpioIssue op pin base w v s).lat.val = v := by
  unfold gpioIssue
  rcases packIssue_cases (loadGpio base w v (latchCmd op 0 pin 0 0 s)) with ⟨_, e⟩ | ⟨_, e⟩ <;> rw [e] <;>
    exact ⟨rfl, rfl, rfl, rfl, rfl⟩

/-- A command with that Issue step is the PACK of the same operands, after any number of controller steps. -/
theorem runCommand_eq_pack {i : Instr} (he : exec i s = .next (gpioIssue op pin base w v s)) (hop : SingleRmw op)
    (hw : widthLegal w = true) (n : Nat) :
    outcomeWithoutLatches (runCommand i n s) = outcomeWithoutLatches (runCommand (.pack pin w 53 base v) n s) := by
  rw [runCommand_of_next he, runCommand_of_next (exec_pack_eq_gpioIssue (op := op) hw)]
  exact (ctrlSteps_relabel (packIssue_runs hop) singleRmw_opPack n).symm

end

/-- Settles O30: each command's Issue step is that of a PACK up to the opcode and index latches, which no later step of
either tells apart. -/
theorem singleGpioCommandsArePacks : Obligations.SingleGpioCommandsArePacks := by
  intro pin v s n
  refine ⟨runCommand_eq_pack exec_gpioSet singleRmw_opGpioSet rfl n,
    runCommand_eq_pack exec_gpioClr singleRmw_opGpioClr rfl n,
    runCommand_eq_pack exec_gpioPull singleRmw_opGpioPull rfl n,
    runCommand_eq_pack exec_gpioFsel singleRmw_opGpioFsel rfl n, fun i op base w val h => ?_⟩
  simp only [List.mem_cons, List.not_mem_nil, or_false, Prod.mk.injEq] at h
  obtain ⟨rfl, rfl, rfl, rfl, rfl⟩ | ⟨rfl, rfl, rfl, rfl, rfl⟩ | ⟨rfl, rfl, rfl, rfl, rfl⟩ | ⟨rfl, rfl, rfl, rfl, rfl⟩ := h
  · exact ⟨_, exec_gpioSet, gpioIssue_latches⟩
  · exact ⟨_, exec_gpioClr, gpioIssue_latches⟩
  · exact ⟨_, exec_gpioPull, gpioIssue_latches⟩
  · exact ⟨_, exec_gpioFsel, gpioIssue_latches⟩

end Sys2Proof.Machine
end

section
/-! PROOFS, family 42_mailbox_buffer.md: BUF.ADDR (R163). That no other CMD is BUF.ADDR rests on the decoder's answer being a
command of the opcode that CMD carries. -/

namespace Sys2Proof

/-! ## The opcode of the command the decoder answers (R90, R93) -/

section
variable {cmd opa opb : Word} {i j : Instr}

theorem eq_of_decodePacker (h : decodePacker cmd i = .legal j) : i = j := by
  unfold decodePacker at h
  split_ifs at h
  exact Decoded.legal.inj h

theorem eq_of_decodeGpio (h : decodeGpio cmd i = .legal j) : i = j := by
  unfold decodeGpio at h
  split_ifs at h
  exact Decoded.legal.inj h

theorem decodeBuffer_eq_legal : decodeBuffer cmd i = .legal j ↔
    i = j ∧ chOf cmd = 0 ∧ pinOf cmd = 0 ∧ widthOf cmd = 0 ∧ maxpOf cmd = 0 := by
  unfold decodeBuffer
  split_ifs with fields
  · simp only [Decoded.legal.injEq, fields, and_self, and_true]
  · exact ⟨nofun, fun h => absurd h.2 fields⟩

theorem eq_of_decodeMboxCall (h : decodeMboxCall cmd = .legal j) : j = .mboxCallFb ∨ j = .mboxCallProp := by
  unfold decodeMboxCall at h
  split_ifs at h
  · exact .inl (Decoded.legal.inj h).symm
  · exact .inr (Decoded.legal.inj h).symm

/-- A legal CMD has RSV = 0 and the opcode of the row of R93 its command is of. -/
theorem opcode_of_decode (h : decode cmd opa opb = .legal i) : rsvOf cmd = 0 ∧ opOf cmd = opOf (rowMatch i) := by
  have legal : (decode cmd opa opb).isLegal = true := by rw [h]; rfl
  have hrsv : rsvOf cmd = 0 := by_contra fun hr => (legalWhen_of_rsv opa opb hr).decoded.1 legal
  refine ⟨hrsv, ?_⟩
  rcases opcode_kinds (opOf cmd) with reserved | packer | gpio | buffer | mboxCall
  · exact ((legalWhen_of_reserved opa opb hrsv reserved).decoded.1 legal).elim
  · rcases packer with hop | hop <;> simp +decide only [decode, hrsv, hop, ite_true, ite_false] at h <;>
      cases eq_of_decodePacker h <;> exact hop
  · rcases gpio with hop | hop | hop | hop | hop | hop <;>
      simp +decide only [decode, hrsv, hop, ite_true, ite_false] at h <;>
      cases eq_of_decodeGpio h <;> exact hop
  · rcases buffer with hop | hop | hop <;> simp +decide only [decode, hrsv, hop, ite_true, ite_false] at h <;>
      cases (decodeBuffer_eq_legal.1 h).1 <;> exact hop
  · simp +decide only [decode, hrsv, mboxCall, ite_true, ite_false] at h
    rcases eq_of_decodeMboxCall h with rfl | rfl <;> exact mboxCall

theorem decode_of_opBufAddr (hrsv : rsvOf cmd = 0) (hop : opOf cmd = opBufAddr) :
    decode cmd opa opb = decodeBuffer cmd .bufAddr := by
  simp +decide [decode, hrsv, hop]

/-- The only CMD of BUF.ADDR, whatever the operand words. -/
theorem decode_eq_bufAddr : decode cmd opa opb = .legal .bufAddr ↔ cmd = 0x0000000B := by
  rw [show (0x0000000B : Word) = cmdWord opBufAddr 0 0 0 0 by decide, eq_cmdWord_iff]
  constructor
  · intro h
    obtain ⟨hrsv, hop⟩ := opcode_of_decode h
    rw [decode_of_opBufAddr hrsv hop] at h
    exact ⟨⟨hrsv, hop⟩, (decodeBuffer_eq_legal.1 h).2⟩
  · rintro ⟨⟨hrsv, hop⟩, fields⟩
    rw [decode_of_opBufAddr hrsv hop]
    exact decodeBuffer_eq_legal.2 ⟨rfl, fields⟩

end

end Sys2Proof

namespace Sys2Proof.Machine

theorem exec_bufAddr (s : State) :
    exec .bufAddr s = .next (complete .ok s.cfg.bufAddr 0 (latchCmd opBufAddr 0 0 0 0 s)) := rfl

/-- R67's alignment to 16 bytes, read on the bits. -/
theorem bufAddr_low {c : Config} (hc : configWellFormed c = true) : c.bufAddr &&& 0xF = 0 := by
  obtain ⟨aligned, -, -⟩ := configWellFormed_buffer hc
  refine BitVec.eq_of_toNat_eq ?_
  calc (c.bufAddr &&& 0xF).toNat = c.bufAddr.toNat &&& (2 ^ 4 - 1) := BitVec.toNat_and ..
    _ = c.bufAddr.toNat % 16 := Nat.and_two_pow_sub_one_eq_mod ..
    _ = 0 := aligned

/-- Settles O38: the Issue step is one `complete`, the buffer is 16-byte aligned, and a command's opcode and fields give back
its CMD. -/
theorem bufAddrReportsTheAddress : Obligations.BufAddrReportsTheAddress :=
  ⟨exec_bufAddr, fun _ hc => bufAddr_low hc, fun _ _ _ => decode_eq_bufAddr⟩

end Sys2Proof.Machine
end

section
/-! PROOFS, family 43_mailbox_channel.md: the mailbox call. Each of its five phases is one equation on the controller's step
(R172-R176); the accesses of a call (R173), what the block takes for its response (R177) and a mailbox that never answers
(R178) follow from these equations. -/

namespace Sys2Proof

/-! ## The two CMD words of MBOX.CALL (R93, R95 (d)) -/

section
variable {cmd opa opb : Word}

theorem decode_of_opMboxCall (hrsv : rsvOf cmd = 0) (hop : opOf cmd = opMboxCall) :
    decode cmd opa opb = decodeMboxCall cmd := by
  simp +decide [decode, hrsv, hop]

theorem decodeMboxCall_eq_fb : decodeMboxCall cmd = .legal .mboxCallFb ↔
    chOf cmd = chFramebuffer ∧ pinOf cmd = 0 ∧ widthOf cmd = 0 ∧ maxpOf cmd = 0 := by
  unfold decodeMboxCall
  split_ifs <;> simp_all

theorem decodeMboxCall_eq_prop : decodeMboxCall cmd = .legal .mboxCallProp ↔
    chOf cmd = chProperty ∧ pinOf cmd = 0 ∧ widthOf cmd = 0 ∧ maxpOf cmd = 0 := by
  have apart : chFramebuffer ≠ chProperty := by decide
  unfold decodeMboxCall
  split_ifs <;> simp_all

/-- A command of MBOX.CALL's opcode that the decoder answers on one channel only has that channel's CMD only. -/
theorem decode_eq_mboxCall {i : Instr} {ch : BitVec 4} (hop : opOf (rowMatch i) = opMboxCall)
    (hi : decodeMboxCall cmd = .legal i ↔ chOf cmd = ch ∧ pinOf cmd = 0 ∧ widthOf cmd = 0 ∧ maxpOf cmd = 0) :
    decode cmd opa opb = .legal i ↔ cmd = cmdWord opMboxCall ch 0 0 0 := by
  rw [eq_cmdWord_iff]
  constructor
  · intro h
    obtain ⟨hrsv, hcmd⟩ := opcode_of_decode h
    rw [decode_of_opMboxCall hrsv (hcmd.trans hop)] at h
    exact ⟨⟨hrsv, hcmd.trans hop⟩, hi.1 h⟩
  · rintro ⟨⟨hrsv, hcmd⟩, fields⟩
    rw [decode_of_opMboxCall hrsv hcmd]
    exact hi.2 fields

theorem decode_eq_mboxCallFb : decode cmd opa opb = .legal .mboxCallFb ↔ cmd = 0x0000001C :=
  decode_eq_mboxCall (by decide) decodeMboxCall_eq_fb

theorem decode_eq_mboxCallProp : decode cmd opa opb = .legal .mboxCallProp ↔ cmd = 0x0000008C :=
  decode_eq_mboxCall (by decide) decodeMboxCall_eq_prop

/-- With MBOX.CALL's opcode every other CMD is illegal. -/
theorem decode_mboxCall_illegal (hop : opOf cmd = opMboxCall) (hfb : cmd ≠ 0x0000001C) (hprop : cmd ≠ 0x0000008C) :
    ∃ r, decode cmd opa opb = .illegal r := by
  cases h : decode cmd opa opb with
  | illegal r => exact ⟨r, rfl⟩
  | legal i =>
    have call := h
    rw [decode_of_opMboxCall (opcode_of_decode h).1 hop] at call
    rcases eq_of_decodeMboxCall call with rfl | rfl
    · exact absurd (decode_eq_mboxCallFb.1 h) hfb
    · exact absurd (decode_eq_mboxCallProp.1 h) hprop

end

end Sys2Proof

namespace Sys2Proof.Machine

open Sys2Proof.Claims

/-! ## The Issue step (R171) -/

/-- The Issue step of a call on either channel. -/
theorem exec_mboxCall {i : Instr} {ch : BitVec 4} (s : State) (h : CallOn i ch) :
    exec i s = .next { s with phase := .mbWaitWritable, lat := callLatches s ch } := by
  rcases h with ⟨rfl, rfl⟩ | ⟨rfl, rfl⟩ <;> rfl

/-- Settles O42: the Issue step by channel, the two CMD words by the decoder, the alignment by R67. -/
theorem mboxCallIssueAssemblesTheDoorbell : Obligations.MboxCallIssueAssemblesTheDoorbell :=
  ⟨fun s _ _ h => exec_mboxCall s h,
   fun _ _ _ => ⟨decode_eq_mboxCallFb, decode_eq_mboxCallProp, decode_mboxCall_illegal⟩,
   fun _ hc => (configWellFormed_buffer hc).1⟩

/-! ## The controller's step in each phase of a call (R172-R176) -/

/-- A read of the controller's takes its draw and is recorded, whichever primitive makes it. -/
theorem afterRead_ctrl (sp : Space) (a : Nat) (s : State) :
    afterRead .ctrl sp a s = { drawn a s with events := ⟨.ctrl, .read, sp, a, readValue a s⟩ :: s.events } := by
  rw [afterRead_eq]
  rfl

/-- Settles O43: one checked read, then the test of the mask. -/
theorem writePollSpinsWhileFull : Obligations.WritePollSpinsWhileFull := by
  intro s hc hp
  obtain ⟨-, hstatus, -⟩ := configWellFormed_mailbox hc
  rw [ctrlStep_of_waitWritable hp, waitWritableStep, mmioRead_of_ok _ hstatus, afterRead_cfg, afterRead_ctrl]
  split_ifs <;> rfl

/-- Settles O45: one checked read, then the test of the mask. -/
theorem readPollSpinsWhileEmpty : Obligations.ReadPollSpinsWhileEmpty := by
  intro s hc hp
  obtain ⟨-, hstatus, -⟩ := configWellFormed_mailbox hc
  rw [ctrlStep_of_waitReadable hp, waitReadableStep, mmioRead_of_ok _ hstatus, afterRead_cfg, afterRead_ctrl]
  split_ifs <;> rfl

/-- Settles O46: one checked read, then the comparison of all 32 bits with `L.db`. -/
theorem echoMatchComparesTheWholeWord : Obligations.EchoMatchComparesTheWholeWord := by
  intro s hc hp
  obtain ⟨hread, -, -⟩ := configWellFormed_mailbox hc
  rw [ctrlStep_of_checkEcho hp, checkEchoStep, mmioRead_of_ok _ hread, afterRead_lat, afterRead_ctrl, ite_not]
  split_ifs <;> rfl

/-- MB_CHECK_RESPONSE ends the call either way; the flag decides the code only. -/
theorem checkResponseStep_eq (s : State) : checkResponseStep s =
    complete (if readValue (bufWordAddr s.cfg 1) s = responseFlag then .ok else .errResponse)
      (readValue (bufWordAddr s.cfg 1) s) s.lat.db (afterRead .ctrl .buffer (bufWordAddr s.cfg 1) s) := by
  rw [checkResponseStep, bufRead, afterRead_lat]
  split_ifs <;> rfl

/-- Settles O47: the read of word 1, then the comparison of all 32 bits with the flag. -/
theorem flagParseTestsTheWholeWord : Obligations.FlagParseTestsTheWholeWord := by
  intro s hp
  rw [ctrlStep_of_checkResponse hp, checkResponseStep_eq, afterRead_ctrl]
  rfl

/-- What a write leaves in memory, whoever makes it. -/
theorem wordWritten_memWrite (who : Agent) (sp : Space) (a : Nat) (v : Word) (s : State) :
    WordWritten s (memWrite who sp a v s).mem a v :=
  ⟨fun _ hb => memWrite_byteAt_outside _ _ _ _ _ hb, memWrite_wordAt_same _ _ _ _ _,
   fun h => by rw [memWrite_mem, h, if_neg Bool.false_ne_true]⟩

/-- MB_PUBLISH: one checked write, which hands the doorbell over. -/
theorem ctrlStep_publishes {s : State} (hc : configWellFormed s.cfg = true) (hp : s.phase = .mbPublish) :
    ctrlStep s = .next { s with
      phase := .mbWaitReadable, mem := (memWrite .ctrl .register s.cfg.mboxWriteAddr.toNat s.lat.db s).mem,
      inbox := s.inbox ++ [s.lat.db], events := writeEvent s.cfg.mboxWriteAddr.toNat s.lat.db :: s.events } := by
  obtain ⟨-, -, hwrite⟩ := configWellFormed_mailbox hc
  rw [ctrlStep_of_publish hp, publishStep, mmioWrite_of_ok _ hwrite, memWrite_eq, memWrite_inbox, if_pos rfl]
  rfl

/-! ## Which response a call takes (R177) -/

/-- A step that records an access of the controller's is the controller's step. -/
theorem ctrlStep_of_recorded {s t : State} {e : Event} (h : step s = .next t) (he : t.events = e :: s.events)
    (hperf : e.performer = .ctrl) : ctrlStep { s with turns := s.turns.tail } = .next t := by
  have absurd_of_kept (hk : t.events = s.events) : False := List.cons_ne_self _ _ (he.symm.trans hk)
  cases (step_shape h).2 with
  | illegal _ _ _ _ _ result => subst result; exact (absurd_of_kept rfl).elim
  | issue _ _ _ _ _ _ _ result =>
    obtain ⟨-, -, -, -, -, -, -, hevents⟩ := exec_keeps result
    exact (absurd_of_kept hevents).elim
  | ctrl _ result => exact result
  | answer _ _ _ _ result => subst result; exact (absurd_of_kept rfl).elim
  | absorb _ _ result => subst result; exact (absurd_of_kept rfl).elim
  | gpuWrite i v ts _ result =>
    subst result
    obtain ⟨-, rfl⟩ := gpuWriteBuffer_recorded he
    cases hperf
  | reset _ _ result => subst result; exact (absurd_of_kept rfl).elim

/-- In the phases of a call the controller's only buffer access is the read of word 1 in MB_CHECK_RESPONSE. -/
theorem CtrlAccess.buffer_of_mailboxPhase {s t : State} {e : Event} (h : CtrlAccess s t) (he : t.events = e :: s.events)
    (hp : mailboxPhase s.phase = true) (hsp : e.space = .buffer) :
    s.phase = .mbCheckResponse ∧ e.kind = .read ∧ e.addr = bufWordAddr s.cfg 1 := by
  have notBufAccess : s.phase ≠ .bufAccess := fun h => by rw [h] at hp; cases hp
  cases h with
  | none events _ _ => exact absurd (he.symm.trans events) (List.cons_ne_self _ _)
  | read sp a events _ _ place =>
    obtain ⟨rfl, -⟩ := List.cons.inj (he.symm.trans events)
    rcases place with ⟨hr, _⟩ | ⟨_, hb | ⟨hc, ha⟩⟩
    · exact nomatch hr.symm.trans hsp
    · exact absurd hb notBufAccess
    · exact ⟨hc, rfl, ha⟩
  | write sp a v events _ _ place =>
    obtain ⟨rfl, -⟩ := List.cons.inj (he.symm.trans events)
    rcases place with ⟨hr, _⟩ | ⟨_, hb, _⟩
    · exact nomatch hr.symm.trans hsp
    · exact absurd hb notBufAccess

/-! ### Entering MB_CHECK_RESPONSE -/

/-- A checked read that is followed by another phase than MB_CHECK_RESPONSE does not enter it. -/
theorem mmioRead_phase_ne_checkResponse {a : Nat} {s : State} {k : Word → State → State}
    (hk : ∀ v u, (k v u).phase ≠ .mbCheckResponse) : (mmioRead a s k).phase ≠ .mbCheckResponse := by
  rcases mmioRead_cases a s k with ⟨_, _, e⟩ | ⟨_, e⟩ <;> rw [e]
  · exact nofun
  · exact hk _ _

/-- A checked write that is followed by another phase than MB_CHECK_RESPONSE does not enter it. -/
theorem mmioWrite_phase_ne_checkResponse {a : Nat} {v : Word} {s : State} {k : State → State}
    (hk : ∀ u, (k u).phase ≠ .mbCheckResponse) : (mmioWrite a v s k).phase ≠ .mbCheckResponse := by
  rcases mmioWrite_cases a v s k with ⟨_, _, e⟩ | ⟨_, e⟩ <;> rw [e]
  · exact nofun
  · exact hk _

section
variable (s : State)

theorem packIssue_phase_ne_checkResponse : (packIssue s).phase ≠ .mbCheckResponse := by
  rcases packIssue_cases s with ⟨_, e⟩ | ⟨_, e⟩ <;> rw [e] <;> exact nofun

theorem unpackIssue_phase_ne_checkResponse : (unpackIssue s).phase ≠ .mbCheckResponse := by
  rcases unpackIssue_cases s with ⟨_, e⟩ | ⟨_, e⟩ <;> rw [e] <;> exact nofun

theorem bufferIssue_phase_ne_checkResponse : (bufferIssue s).phase ≠ .mbCheckResponse := by
  rcases bufferIssue_cases s with ⟨_, e⟩ | ⟨_, e⟩ <;> rw [e] <;> exact nofun

theorem compositeIssue_phase_ne_checkResponse : (compositeIssue s).phase ≠ .mbCheckResponse := by
  rcases compositeIssue_cases s with ⟨_, e⟩ | ⟨_, e⟩ <;> rw [e] <;> exact nofun

theorem beginStage1_phase_ne_checkResponse : (beginStage1 s).phase ≠ .mbCheckResponse := by
  rcases beginStage1_cases s with ⟨_, e⟩ | ⟨_, e⟩ <;> rw [e] <;> exact nofun

theorem bufAccessStep_phase_ne_checkResponse : (bufAccessStep s).phase ≠ .mbCheckResponse := by
  unfold bufAccessStep
  split <;> exact nofun

end

/-- No Issue step enters it. -/
theorem exec_phase_ne_checkResponse {i : Instr} {s t : State} (h : exec i s = .next t) : t.phase ≠ .mbCheckResponse := by
  cases i with
  | pack pin w maxp base value =>
    simp only [exec, execPack] at h
    split at h <;> cases h
    · exact packIssue_phase_ne_checkResponse _
    · exact nofun
  | unpack pin w maxp base =>
    simp only [exec, execUnpack] at h
    split at h <;> cases h
    · exact unpackIssue_phase_ne_checkResponse _
    · exact nofun
  | gpioSet pin => cases h; exact packIssue_phase_ne_checkResponse _
  | gpioClr pin => cases h; exact packIssue_phase_ne_checkResponse _
  | gpioPull pin state => cases h; exact packIssue_phase_ne_checkResponse _
  | gpioFsel pin function => cases h; exact packIssue_phase_ne_checkResponse _
  | gpioAlt3 pin => cases h; exact compositeIssue_phase_ne_checkResponse _
  | gpioAlt5 pin => cases h; exact compositeIssue_phase_ne_checkResponse _
  | bufWr index value => cases h; exact bufferIssue_phase_ne_checkResponse _
  | bufRd index => cases h; exact bufferIssue_phase_ne_checkResponse _
  | bufAddr => cases h; exact nofun
  | mboxCallFb => cases h; exact nofun
  | mboxCallProp => cases h; exact nofun

/-- Of the controller's steps only MB_CHECK_ECHO's enters it. -/
theorem ctrlStep_enters_checkResponse {s t : State} (h : ctrlStep s = .next t) (ht : t.phase = .mbCheckResponse)
    (hs : s.phase ≠ .mbCheckResponse) : s.phase = .mbCheckEcho := by
  cases hp : s.phase with
  | mbCheckEcho => rfl
  | mbCheckResponse => exact absurd hp hs
  | idle => rw [ctrlStep_of_idle hp] at h; cases h; exact absurd ht hs
  | fpRead =>
    rw [ctrlStep_of_fpRead hp] at h
    cases h
    exact absurd ht (mmioRead_phase_ne_checkResponse fun _ _ => by split <;> exact nofun)
  | fpWrite =>
    rw [ctrlStep_of_fpWrite hp] at h
    cases h
    refine absurd ht (mmioWrite_phase_ne_checkResponse fun u => ?_)
    split
    · exact beginStage1_phase_ne_checkResponse u
    · exact nofun
  | bufAccess => rw [ctrlStep_of_bufAccess hp] at h; cases h; exact absurd ht (bufAccessStep_phase_ne_checkResponse s)
  | mbWaitWritable =>
    rw [ctrlStep_of_waitWritable hp] at h
    cases h
    exact absurd ht (mmioRead_phase_ne_checkResponse fun _ _ => by split <;> exact nofun)
  | mbPublish =>
    rw [ctrlStep_of_publish hp] at h
    cases h
    exact absurd ht (mmioWrite_phase_ne_checkResponse fun _ => nofun)
  | mbWaitReadable =>
    rw [ctrlStep_of_waitReadable hp] at h
    cases h
    exact absurd ht (mmioRead_phase_ne_checkResponse fun _ _ => by split <;> exact nofun)
  | faulted => rw [ctrlStep_of_faulted hp] at h; cases h

theorem gpuWriteBuffer_phase (i : Nat) (v : Word) (s : State) : (gpuWriteBuffer i v s).phase = s.phase := by
  unfold gpuWriteBuffer
  split
  · exact memWrite_phase ..
  · rfl

/-- A step that enters it is the controller's step in MB_CHECK_ECHO. -/
theorem step_enters_checkResponse {s t : State} (h : step s = .next t) (ht : t.phase = .mbCheckResponse)
    (hs : s.phase ≠ .mbCheckResponse) :
    s.phase = .mbCheckEcho ∧ ctrlStep { s with turns := s.turns.tail } = .next t := by
  cases (step_shape h).2 with
  | illegal _ _ _ _ _ result => subst result; cases ht
  | issue _ _ _ _ _ _ _ result => exact absurd ht (exec_phase_ne_checkResponse result)
  | ctrl _ result =>
    exact ⟨ctrlStep_enters_checkResponse (s := { s with turns := s.turns.tail }) result ht hs, result⟩
  | answer _ _ _ _ result => subst result; exact absurd ht hs
  | absorb _ _ result => subst result; exact absurd ht hs
  | gpuWrite i v ts _ result => subst result; exact absurd ((gpuWriteBuffer_phase ..).symm.trans ht) hs
  | reset _ _ result => subst result; cases ht

/-- MB_CHECK_ECHO goes on to MB_CHECK_RESPONSE on a read of `L.db` only. -/
theorem checkEcho_matched {s t : State} (hc : configWellFormed s.cfg = true) (hp : s.phase = .mbCheckEcho)
    (h : ctrlStep s = .next t) (ht : t.phase = .mbCheckResponse) :
    t.lat.db = s.lat.db ∧ t.lat.echo = s.lat.db ∧
      t.events = readEvent s.cfg.mboxReadAddr.toNat s.lat.db :: s.events := by
  rw [echoMatchComparesTheWholeWord s hc hp] at h
  cases h
  have echo : readValue s.cfg.mboxReadAddr.toNat s = s.lat.db :=
    by_contra fun hne => nomatch (if_neg hne).symm.trans ht
  exact ⟨rfl, echo, by rw [echo]⟩

/-- Settles O49: the accesses of a call's phases, and the one step that enters MB_CHECK_RESPONSE. -/
theorem onlyAMatchingEchoIsTheResponse : Obligations.OnlyAMatchingEchoIsTheResponse := by
  refine ⟨fun s t e hp h he hperf hsp => ?_, fun s t h ht hs => ?_⟩
  · exact (ctrlStep_access (ctrlStep_of_recorded h he hperf)).buffer_of_mailboxPhase he hp hsp
  · obtain ⟨hp, hctrl⟩ := step_enters_checkResponse h ht hs
    exact ⟨hp, checkEcho_matched (s := { s with turns := s.turns.tail }) (step_shape h).1 hp hctrl ht⟩

/-! ## The accesses of a call (R173) -/

/-- What every controller step keeps, any number of them keep. -/
theorem ctrlSteps_keep {P : State → Prop} (hP : ∀ {s t}, P s → ctrlStep s = .next t → P t) {n : Nat} {s t : State}
    (h : ctrlSteps n s = .next t) (hs : P s) : P t := by
  induction n generalizing s with
  | zero => cases h; exact hs
  | succ n ih =>
    cases hstep : ctrlStep s with
    | next u => exact ih (by rwa [ctrlSteps_succ_of_next hstep] at h) (hP hs hstep)
    | fault r => rw [ctrlSteps, hstep] at h; cases h
    | refused r => rw [ctrlSteps, hstep] at h; cases h

/-- Every access listed is a status read that showed full. -/
def FullReads (c : Config) (l : List Event) : Prop :=
  ∀ e ∈ l, ∃ v, e = readEvent c.mboxStatusAddr.toNat v ∧ v &&& c.mboxFullMask ≠ 0

/-- The progress of a call whose doorbell is `db` and before which the accesses `before` were made: the accesses since, by
the part of the call the block is in. -/
inductive CallProgress (c : Config) (db : Word) (before : List Event) (t : State) : Prop where
  /-- The write-poll. -/
  | polling (fulls : List Event) (phase : t.phase = .mbWaitWritable) (doorbell : t.lat.db = db) (full : FullReads c fulls)
      (events : t.events = fulls ++ before)
  /-- The write-poll has ended, the doorbell is about to be written. -/
  | granted (v : Word) (fulls : List Event) (phase : t.phase = .mbPublish) (doorbell : t.lat.db = db)
      (free : v &&& c.mboxFullMask = 0) (full : FullReads c fulls)
      (events : t.events = readEvent c.mboxStatusAddr.toNat v :: fulls ++ before)
  /-- The doorbell has been written. -/
  | published (v : Word) (fulls reads : List Event) (phase : callInFlight t = true ∨ t.phase = .idle)
      (free : v &&& c.mboxFullMask = 0) (full : FullReads c fulls) (read : ∀ e ∈ reads, e.kind = .read)
      (events : t.events = reads ++ writeEvent c.mboxWriteAddr.toNat db ::
        readEvent c.mboxStatusAddr.toNat v :: fulls ++ before)

/-- After the publish a controller step reads or makes no access, and does not go back before the publish. -/
theorem ctrlStep_after_publish {s t : State} (hc : configWellFormed s.cfg = true)
    (hp : callInFlight s = true ∨ s.phase = .idle) (h : ctrlStep s = .next t) :
    (callInFlight t = true ∨ t.phase = .idle) ∧ ∃ reads, t.events = reads ++ s.events ∧ ∀ e ∈ reads, e.kind = .read := by
  rw [callInFlight_iff] at hp ⊢
  obtain (hp | hp | hp) | hp := hp
  · rw [readPollSpinsWhileEmpty s hc hp] at h
    cases h
    refine ⟨.inl ?_, [_], rfl, by simp [readEvent]⟩
    dsimp only
    split_ifs
    · exact .inl rfl
    · exact .inr (.inl rfl)
  · rw [echoMatchComparesTheWholeWord s hc hp] at h
    cases h
    refine ⟨.inl ?_, [_], rfl, by simp [readEvent]⟩
    dsimp only
    split_ifs
    · exact .inr (.inr rfl)
    · exact .inl rfl
  · rw [flagParseTestsTheWholeWord s hp] at h
    cases h
    exact ⟨.inr rfl, [_], rfl, by simp⟩
  · rw [ctrlStep_of_idle hp] at h
    cases h
    exact ⟨.inr hp, [], rfl, by simp⟩

/-- A controller step of a call: another full status, the status that ends the poll, the publish, or a read after it. -/
theorem CallProgress.ctrlStep {c : Config} {db : Word} {before : List Event} {s t : State} (hcfg : s.cfg = c)
    (hc : configWellFormed c = true) (hs : CallProgress c db before s) (h : Machine.ctrlStep s = .next t) :
    CallProgress c db before t := by
  subst hcfg
  cases hs with
  | polling fulls phase doorbell full events =>
    rw [writePollSpinsWhileFull s hc phase] at h
    cases h
    by_cases busy : readValue s.cfg.mboxStatusAddr.toNat s &&& s.cfg.mboxFullMask ≠ 0
    · exact .polling (_ :: fulls) (if_pos busy) doorbell (List.forall_mem_cons.2 ⟨⟨_, rfl, busy⟩, full⟩)
        (congrArg _ events)
    · exact .granted _ fulls (if_neg busy) doorbell (not_not.1 busy) full (congrArg _ events)
  | granted v fulls phase doorbell free full events =>
    rw [ctrlStep_publishes hc phase, doorbell, events] at h
    cases h
    exact .published v fulls [] (.inl rfl) free full (by simp) rfl
  | published v fulls reads phase free full read events =>
    obtain ⟨phase', more, events', read'⟩ := ctrlStep_after_publish hc phase h
    exact .published v fulls (more ++ reads) phase' free full (List.forall_mem_append.2 ⟨read', read⟩)
      (by rw [events', events]; simp only [List.append_assoc])

/-- The accesses of a call after any number of controller steps. -/
theorem runCommand_callProgress {s t : State} {i : Instr} {ch : BitVec 4} {n : Nat} (hc : configWellFormed s.cfg = true)
    (hi : CallOn i ch) (h : runCommand i n s = .next t) : CallProgress s.cfg (callLatches s ch).db s.events t := by
  rw [runCommand_of_next (exec_mboxCall s hi)] at h
  suffices kept : t.cfg = s.cfg ∧ CallProgress s.cfg (callLatches s ch).db s.events t from kept.2
  refine ctrlSteps_keep (P := fun u => u.cfg = s.cfg ∧ CallProgress s.cfg (callLatches s ch).db s.events u) ?_ h
    ⟨rfl, .polling [] rfl rfl (by simp [FullReads]) rfl⟩
  rintro u u' ⟨hcfg, progress⟩ hstep
  obtain ⟨hcfg', -, -⟩ := ctrlStep_keeps hstep
  exact ⟨hcfg'.trans hcfg, progress.ctrlStep hcfg hc hstep⟩

/-- Settles O44: the publish is one write, and the progress of the call says which accesses came before and after it. -/
theorem doorbellIsPublishedExactlyOnce : Obligations.DoorbellIsPublishedExactlyOnce := by
  refine ⟨fun s hc hp => ⟨_, ctrlStep_publishes hc hp, wordWritten_memWrite ..⟩, fun s t i ch n hc hi h => ?_⟩
  cases runCommand_callProgress hc hi h with
  | polling fulls phase _ full events =>
    exact ⟨[], fulls, events, fun _ => ⟨rfl, full⟩, fun hp => absurd phase hp⟩
  | granted v fulls phase _ free full events =>
    have notPolling : t.phase ≠ .mbWaitWritable := by rw [phase]; decide
    exact ⟨[], readEvent _ v :: fulls, events, fun hp => absurd hp notPolling,
      fun _ => ⟨v, fulls, rfl, free, full, fun _ => rfl, fun hp => absurd phase hp⟩⟩
  | published v fulls reads phase free full read events =>
    rw [callInFlight_iff] at phase
    have notPolling : t.phase ≠ .mbWaitWritable := fun hp => by simp [hp] at phase
    have notPublish : t.phase ≠ .mbPublish := fun hp => by simp [hp] at phase
    exact ⟨reads ++ [writeEvent _ (callLatches s ch).db], readEvent _ v :: fulls, by rw [events]; simp,
      fun hp => absurd hp notPolling,
      fun _ => ⟨v, fulls, rfl, free, full, fun hp => absurd hp notPublish, fun _ => ⟨reads, rfl, read⟩⟩⟩

/-! ## A mailbox that never answers (R178) -/

/-! ### Runs: one step of a running command, whoever moves -/

/-- A move of the environment leaves the running command where it is, and hands over no doorbell before the publish. -/
structure EnvironmentMoves (s t : State) : Prop where
  phase : t.phase = s.phase
  results : t.results = s.results
  inbox : callInFlight s = false → t.inbox.length ≤ s.inbox.length

theorem gpuWriteBuffer_environmentMoves (i : Nat) (v : Word) (s : State) : EnvironmentMoves s (gpuWriteBuffer i v s) where
  phase := gpuWriteBuffer_phase i v s
  results := gpuWriteBuffer_results i v s
  inbox := fun hf => by rw [gpuWriteBuffer_of_disabled v fun h => nomatch hf.symm.trans h.1]

theorem gpuWriteBuffer_port_turns (i : Nat) (v : Word) (s : State) :
    (gpuWriteBuffer i v s).port = s.port ∧ (gpuWriteBuffer i v s).turns = s.turns := by
  unfold gpuWriteBuffer
  split
  · exact ⟨memWrite_port .., memWrite_turns ..⟩
  · exact ⟨rfl, rfl⟩

/-- While a command runs and no reset is due, a step is the controller's or the environment's: no Issue is accepted. -/
theorem step_running {s t : State} (h : step s = .next t) (hp : s.phase ≠ .idle) (hr : Turn.reset ∉ s.turns) :
    (t.port = s.port ∧ t.turns = s.turns.tail) ∧
      (ctrlStep { s with turns := s.turns.tail } = .next t ∨ EnvironmentMoves s t) := by
  cases (step_shape h).2 with
  | illegal _ _ idle _ _ _ => exact absurd idle hp
  | issue _ _ _ idle _ _ _ _ => exact absurd idle hp
  | ctrl _ result => exact ⟨(ctrlStep_keeps result).2, .inl result⟩
  | answer _ _ _ turn result => subst result; exact ⟨⟨rfl, by rw [turn]; rfl⟩, .inr ⟨rfl, rfl, fun _ => le_rfl⟩⟩
  | absorb _ turn result =>
    subst result
    exact ⟨⟨rfl, by rw [turn]; rfl⟩, .inr ⟨rfl, rfl, fun _ => by simp⟩⟩
  | gpuWrite i v ts turn result =>
    subst result
    rw [turn]
    obtain ⟨phase, results, inbox⟩ := gpuWriteBuffer_environmentMoves i v { s with turns := ts }
    exact ⟨gpuWriteBuffer_port_turns i v { s with turns := ts }, .inr ⟨phase, results, inbox⟩⟩
  | reset _ turn _ => exact absurd (by simp [turn]) hr

/-- Phases of a call that every controller step of the run keeps are kept forever, with the results and the queue. -/
theorem run_keeps_phases {r : Nat → State} (hrun : IsRun r) (hreset : Turn.reset ∉ (r 0).turns) {P : Phase → Prop}
    (hcall : ∀ {p}, P p → mailboxPhase p = true) (hstart : P (r 0).phase)
    (hctrl : ∀ n, P (r n).phase → configWellFormed (r n).cfg = true →
      ctrlStep { r n with turns := (r n).turns.tail } = .next (r (n + 1)) → P (r (n + 1)).phase) (n : Nat) :
    P (r n).phase ∧ (r n).results = (r 0).results ∧ (r n).port = (r 0).port ∧ Turn.reset ∉ (r n).turns := by
  have running {p : Phase} (hp : P p) : ¬ (p = .idle ∨ p = .faulted) := by
    rintro (rfl | rfl) <;> exact nomatch hcall hp
  induction n with
  | zero => exact ⟨hstart, rfl, rfl, hreset⟩
  | succ n ih =>
    obtain ⟨phase, results, port, noReset⟩ := ih
    obtain ⟨⟨port', turns'⟩, move⟩ := step_running (hrun n) (fun h => running phase (.inl h)) noReset
    have noReset' : Turn.reset ∉ (r (n + 1)).turns := fun h => noReset (List.mem_of_mem_tail (turns' ▸ h))
    rcases move with ctrl | ⟨phase', results', -⟩
    · have phase' := hctrl n phase (step_shape (hrun n)).1 ctrl
      have results' := (ctrlStep_endsOrKeeps ctrl).resolve_left (running phase')
      exact ⟨phase', results'.trans results, port'.trans port, noReset'⟩
    · exact ⟨phase' ▸ phase, results'.trans results, port'.trans port, noReset'⟩

/-! ### Runs: the three ways not to answer -/

section
variable {r : Nat → State} {n : Nat}

/-- A status read that shows full keeps the write-poll going, and hands over nothing. -/
theorem writePoll_stays
    (hfull : ∀ v, ReadsAt r n (r n).cfg.mboxStatusAddr.toNat v → v &&& (r n).cfg.mboxFullMask ≠ 0)
    (hc : configWellFormed (r n).cfg = true) (hp : (r n).phase = .mbWaitWritable)
    (h : ctrlStep { r n with turns := (r n).turns.tail } = .next (r (n + 1))) :
    (r (n + 1)).phase = .mbWaitWritable ∧ (r (n + 1)).inbox = (r n).inbox := by
  rw [writePollSpinsWhileFull { r n with turns := (r n).turns.tail } hc hp] at h
  have e := (Host.Outcome.next.inj h).symm
  have busy := hfull _ (congrArg State.events e)
  exact ⟨(congrArg State.phase e).trans (if_pos busy), (congrArg State.inbox e).trans rfl⟩

/-- A status read that shows empty keeps the read-poll going. -/
theorem readPoll_stays
    (hempty : ∀ v, ReadsAt r n (r n).cfg.mboxStatusAddr.toNat v → v &&& (r n).cfg.mboxEmptyMask ≠ 0)
    (hc : configWellFormed (r n).cfg = true) (hp : (r n).phase = .mbWaitReadable)
    (h : ctrlStep { r n with turns := (r n).turns.tail } = .next (r (n + 1))) : (r (n + 1)).phase = .mbWaitReadable := by
  rw [readPollSpinsWhileEmpty { r n with turns := (r n).turns.tail } hc hp] at h
  have e := (Host.Outcome.next.inj h).symm
  exact (congrArg State.phase e).trans (if_pos (hempty _ (congrArg State.events e)))

/-- A read that returns no doorbell goes back to the read-poll. -/
theorem checkEcho_goes_back (hother : ¬ ReadsAt r n (r n).cfg.mboxReadAddr.toNat (r n).lat.db)
    (hc : configWellFormed (r n).cfg = true) (hp : (r n).phase = .mbCheckEcho)
    (h : ctrlStep { r n with turns := (r n).turns.tail } = .next (r (n + 1))) : (r (n + 1)).phase = .mbWaitReadable := by
  rw [echoMatchComparesTheWholeWord { r n with turns := (r n).turns.tail } hc hp] at h
  have e := (Host.Outcome.next.inj h).symm
  refine (congrArg State.phase e).trans (if_neg fun echo => hother ?_)
  rw [← echo]
  exact congrArg State.events e

end

/-- The phases of a call that waits for its echo. -/
def AwaitsEcho (p : Phase) : Prop := p = .mbWaitReadable ∨ p = .mbCheckEcho

theorem AwaitsEcho.mailboxPhase {p : Phase} (h : AwaitsEcho p) : mailboxPhase p = true := by
  rcases h with rfl | rfl <;> rfl

/-- The read-poll leads to itself or to MB_CHECK_ECHO. -/
theorem readPoll_awaitsEcho {s t : State} (hc : configWellFormed s.cfg = true) (hp : s.phase = .mbWaitReadable)
    (h : ctrlStep s = .next t) : AwaitsEcho t.phase := by
  rw [readPollSpinsWhileEmpty s hc hp] at h
  cases h
  unfold AwaitsEcho
  dsimp only
  split_ifs
  · exact .inl rfl
  · exact .inr rfl

/-! ### Controller steps: such behaviour is possible for any number of steps -/

/-- A step that only records the same access again can be taken any number of times. -/
theorem ctrlSteps_of_spin {s : State} {e : Event}
    (spin : ∀ l, ctrlStep { s with events := l } = .next { s with events := e :: l }) (n : Nat) (l : List Event) :
    ctrlSteps n { s with events := l } = .next { s with events := List.replicate n e ++ l } := by
  induction n generalizing l with
  | zero => rfl
  | succ n ih => rw [ctrlSteps_succ_of_next (spin l), ih, List.replicate_succ', List.append_assoc]; rfl

/-- A read of a word memory lists takes no draw. -/
theorem drawn_of_stored {a : Nat} {s : State} {v : Word} (h : s.mem.wordAt a = some v) : drawn a s = s := by
  rw [drawn, afterRead_of_stored h]
  rfl

theorem ctrlStep_polls_full {s : State} {v : Word} (hc : configWellFormed s.cfg = true) (hp : s.phase = .mbWaitWritable)
    (hv : s.mem.wordAt s.cfg.mboxStatusAddr.toNat = some v) (busy : v &&& s.cfg.mboxFullMask ≠ 0) :
    ctrlStep s = .next { s with events := readEvent s.cfg.mboxStatusAddr.toNat v :: s.events } := by
  rw [writePollSpinsWhileFull s hc hp, drawn_of_stored hv, readValue_of_stored hv, if_pos busy, ← hp]

theorem ctrlStep_polls_empty {s : State} {v : Word} (hc : configWellFormed s.cfg = true) (hp : s.phase = .mbWaitReadable)
    (hv : s.mem.wordAt s.cfg.mboxStatusAddr.toNat = some v) (busy : v &&& s.cfg.mboxEmptyMask ≠ 0) :
    ctrlStep s = .next { s with events := readEvent s.cfg.mboxStatusAddr.toNat v :: s.events } := by
  rw [readPollSpinsWhileEmpty s hc hp, drawn_of_stored hv, readValue_of_stored hv, if_pos busy, ← hp]

/-- A call that waits for its echo while MBOX_READ_ADDR keeps another word. -/
structure EchoWithheld (s : State) : Prop where
  config : configWellFormed s.cfg = true
  phase : AwaitsEcho s.phase
  word : ∃ e, s.mem.wordAt s.cfg.mboxReadAddr.toNat = some e ∧ e ≠ s.lat.db

/-- It goes on waiting. -/
theorem EchoWithheld.ctrlStep {s : State} (h : EchoWithheld s) :
    ∃ t, Machine.ctrlStep s = .next t ∧ EchoWithheld t ∧ t.results = s.results ∧ t.port = s.port := by
  obtain ⟨hc, hp | hp, e, he, hne⟩ := h
  · have hstep := readPollSpinsWhileEmpty s hc hp
    exact ⟨_, hstep, ⟨hc, readPoll_awaitsEcho hc hp hstep, e, he, hne⟩, rfl, rfl⟩
  · have hstep := echoMatchComparesTheWholeWord s hc hp
    rw [readValue_of_stored he, if_neg hne] at hstep
    exact ⟨_, hstep, ⟨hc, .inl rfl, e, he, hne⟩, rfl, rfl⟩

theorem EchoWithheld.ctrlSteps {s : State} (h : EchoWithheld s) (n : Nat) :
    ∃ t, Machine.ctrlSteps n s = .next t ∧ EchoWithheld t ∧ t.results = s.results ∧ t.port = s.port := by
  induction n generalizing s with
  | zero => exact ⟨s, rfl, h, rfl, rfl⟩
  | succ n ih =>
    obtain ⟨u, hstep, hu, results, port⟩ := h.ctrlStep
    obtain ⟨t, hsteps, ht, results', port'⟩ := ih hu
    exact ⟨t, (ctrlSteps_succ_of_next hstep).trans hsteps, ht, results'.trans results, port'.trans port⟩

/-! ### The obligation -/

theorem results_eq_iff {s t : State} :
    t.results = s.results ↔ t.resCode = s.resCode ∧ t.resData = s.resData ∧ t.resInfo = s.resInfo := by
  simp [State.results]

section
variable {r : Nat → State} (hrun : IsRun r) (hreset : Turn.reset ∉ (r 0).turns)
include hrun hreset

/-- A mailbox that stays full. -/
theorem run_polls_full (hp : (r 0).phase = .mbWaitWritable)
    (hfull : ∀ n v, ReadsAt r n (r n).cfg.mboxStatusAddr.toNat v → v &&& (r n).cfg.mboxFullMask ≠ 0) (n : Nat) :
    (r n).phase = .mbWaitWritable ∧ (r n).inbox.length ≤ (r 0).inbox.length ∧ (r n).results = (r 0).results ∧
      (r n).port = (r 0).port := by
  have polls := run_keeps_phases hrun hreset (P := (· = .mbWaitWritable)) (fun h => h ▸ rfl) hp
    fun n hp hc h => (writePoll_stays (hfull n) hc hp h).1
  have inbox : ∀ n, (r (n + 1)).inbox.length ≤ (r n).inbox.length := fun n => by
    obtain ⟨phase, -, -, noReset⟩ := polls n
    rcases (step_running (hrun n) (by rw [phase]; decide) noReset).2 with ctrl | env
    · rw [(writePoll_stays (hfull n) (step_shape (hrun n)).1 phase ctrl).2]
    · exact env.inbox (by rw [callInFlight, phase]; rfl)
  obtain ⟨phase, results, port, -⟩ := polls n
  exact ⟨phase, antitone_nat_of_succ_le (f := fun n => (r n).inbox.length) inbox (Nat.zero_le n), results, port⟩

/-- A mailbox that stays empty. -/
theorem run_polls_empty (hp : (r 0).phase = .mbWaitReadable)
    (hempty : ∀ n v, ReadsAt r n (r n).cfg.mboxStatusAddr.toNat v → v &&& (r n).cfg.mboxEmptyMask ≠ 0) (n : Nat) :
    (r n).phase = .mbWaitReadable ∧ (r n).results = (r 0).results ∧ (r n).port = (r 0).port := by
  obtain ⟨phase, results, port, -⟩ := run_keeps_phases hrun hreset (P := (· = .mbWaitReadable)) (fun h => h ▸ rfl) hp
    (fun n hp hc h => readPoll_stays (hempty n) hc hp h) n
  exact ⟨phase, results, port⟩

/-- A mailbox that never returns the doorbell. -/
theorem run_awaits_echo (hp : AwaitsEcho (r 0).phase)
    (hother : ∀ n, ¬ ReadsAt r n (r n).cfg.mboxReadAddr.toNat (r n).lat.db) (n : Nat) :
    AwaitsEcho (r n).phase ∧ (r n).results = (r 0).results ∧ (r n).port = (r 0).port := by
  obtain ⟨phase, results, port, -⟩ := run_keeps_phases hrun hreset AwaitsEcho.mailboxPhase hp
    (fun n hp hc h => hp.elim (fun hp => readPoll_awaitsEcho (s := { r n with turns := (r n).turns.tail }) hc hp h)
      fun hp => .inl (checkEcho_goes_back (hother n) hc hp h)) n
  exact ⟨phase, results, port⟩

end

/-- Settles O50: in a run the polling phases are kept step by step; and with the registers' words listed in memory the
controller's step repeats itself. -/
theorem unresponsiveMailboxBlocksForever : Obligations.UnresponsiveMailboxBlocksForever := by
  refine ⟨fun r hrun hreset => ⟨fun hp hfull n => ?_, fun hp hempty n => ?_, fun hp hother n => ?_⟩,
    fun s n hc => ⟨fun v hp hv busy => ?_, fun v hp hv busy => ?_, fun v e hp _ he hne => ?_⟩⟩
  · obtain ⟨phase, inbox, results, port⟩ := run_polls_full hrun hreset hp hfull n
    obtain ⟨code, data, info⟩ := results_eq_iff.1 results
    exact ⟨phase, inbox, code, data, info, port⟩
  · obtain ⟨phase, results, port⟩ := run_polls_empty hrun hreset hp hempty n
    obtain ⟨code, data, info⟩ := results_eq_iff.1 results
    exact ⟨phase, code, data, info, port⟩
  · obtain ⟨phase, results, port⟩ := run_awaits_echo hrun hreset hp hother n
    obtain ⟨code, data, info⟩ := results_eq_iff.1 results
    exact ⟨phase, code, data, info, port⟩
  · exact ctrlSteps_of_spin (fun l => ctrlStep_polls_full (s := { s with events := l }) hc hp hv busy) n s.events
  · exact ctrlSteps_of_spin (fun l => ctrlStep_polls_empty (s := { s with events := l }) hc hp hv busy) n s.events
  · obtain ⟨t, hsteps, ht, results, port⟩ := EchoWithheld.ctrlSteps ⟨hc, hp, e, he, hne⟩ n
    obtain ⟨code, data, info⟩ := results_eq_iff.1 results
    exact ⟨t, hsteps, ht.phase, code, data, info, port⟩

end Sys2Proof.Machine
end

section
/-! PROOFS, family 60_exceptions.md: how a command ends. What an Issue step performs once the operands are latched, and how
a controller step leaves the command, each said once; the recoverable errors (R201) and the fatal conditions (R202) follow. -/

namespace Sys2Proof.Machine

/-! ## The Issue step: latching, then one issue part -/

/-- The issue parts, in a state whose operands are latched. -/
inductive IssuePart (s t : State) : Prop where
  | pack (l : Latches) (result : t = packIssue (setLat l s))
  | unpack (l : Latches) (result : t = unpackIssue (setLat l s))
  | composite (l : Latches) (result : t = compositeIssue (setLat l s))
  | buffer (l : Latches) (result : t = bufferIssue (setLat l s))
  | call (l : Latches) (result : t = mboxIssue (setLat l s))
  | ends (phase : t.phase = .idle)

/-- Every Issue step is one of them. -/
theorem exec_issuePart {i : Instr} {s t : State} (h : exec i s = .next t) : IssuePart s t := by
  cases i with
  | pack pin w maxp base value =>
    simp only [exec, execPack] at h
    split at h <;> cases h
    · exact .pack _ rfl
    · exact .ends rfl
  | unpack pin w maxp base =>
    simp only [exec, execUnpack] at h
    split at h <;> cases h
    · exact .unpack _ rfl
    · exact .ends rfl
  | gpioSet pin => cases h; exact .pack _ rfl
  | gpioClr pin => cases h; exact .pack _ rfl
  | gpioPull pin state => cases h; exact .pack _ rfl
  | gpioFsel pin function => cases h; exact .pack _ rfl
  | gpioAlt3 pin => cases h; exact .composite _ rfl
  | gpioAlt5 pin => cases h; exact .composite _ rfl
  | bufWr index value => cases h; exact .buffer _ rfl
  | bufRd index => cases h; exact .buffer _ rfl
  | bufAddr => cases h; exact .ends rfl
  | mboxCallFb => cases h; exact .call _ rfl
  | mboxCallProp => cases h; exact .call _ rfl

/-- An Issue step that enters FAULTED records a fatal code. -/
theorem exec_isFatal_of_faulted {i : Instr} {s t : State} (h : exec i s = .next t) (ht : t.phase = .faulted) :
    t.resCode.isFatal = true := by
  cases exec_issuePart h with
  | pack l result =>
    rcases packIssue_cases (setLat l s) with ⟨_, e⟩ | ⟨_, e⟩ <;> rw [result, e] at ht <;> cases ht
  | unpack l result =>
    rcases unpackIssue_cases (setLat l s) with ⟨_, e⟩ | ⟨_, e⟩ <;> rw [result, e] at ht <;> cases ht
  | composite l result =>
    rcases compositeIssue_cases (setLat l s) with ⟨_, e⟩ | ⟨_, e⟩ <;> rw [e] at result <;> subst result
    · rfl
    · cases ht
  | buffer l result =>
    rcases bufferIssue_cases (setLat l s) with ⟨_, e⟩ | ⟨_, e⟩ <;> rw [e] at result <;> subst result
    · rfl
    · cases ht
  | call l result => subst result; cases ht
  | ends phase => exact nomatch phase.symm.trans ht

/-! ## How a controller step leaves the command -/

section
variable {s t : State}

@[simp] theorem afterRead_results (who : Agent) (sp : Space) (a : Nat) (s : State) :
    (afterRead who sp a s).results = s.results := by simp [State.results]

@[simp] theorem memWrite_results (who : Agent) (sp : Space) (a : Nat) (v : Word) (s : State) :
    (memWrite who sp a v s).results = s.results := by simp [State.results]

/-- How a controller step leaves the command. The one recoverable error is MB_CHECK_RESPONSE's, after a read; a fatal
condition is raised in place of the access, but for "begin stage 1" of R145, which follows the write of stage 0. -/
inductive CtrlEnd (s t : State) : Prop where
  | goesOn (phase : t.phase ≠ .faulted) (results : t.results = s.results)
  | ok (phase : t.phase = .idle) (code : t.resCode = .ok)
  | noFlag (phase : t.phase = .idle) (code : t.resCode = .errResponse) (mem : t.mem = s.mem)
      (read : ∃ e, t.events = e :: s.events ∧ e.kind = .read)
  | raises (code : ResCode) (info : Word) (fatal : code.isFatal = true) (result : t = raiseFatal code info s)
  | stage1Fails (writing : s.phase = .fpWrite) (composite : s.lat.op = opGpioAlt3 ∨ s.lat.op = opGpioAlt5)
      (bad : rangeCheck s.lat.pin (compositeCode s) fselWidth gpioMaxPin ≠ 0) (code : t.resCode = .fatalComposite)

/-- A checked read raises in place of the read, or goes on with the value. -/
theorem CtrlEnd.mmioRead {a : Nat} {k : Word → State → State}
    (hk : CtrlEnd s (k (readValue a s) (afterRead .ctrl .register a s))) : CtrlEnd s (Machine.mmioRead a s k) := by
  rcases mmioRead_cases a s k with ⟨code, hm, e⟩ | ⟨_, e⟩ <;> rw [e]
  · exact .raises code _ (mmioFault_isFatal hm) rfl
  · exact hk

/-- A checked write raises in place of the write, or goes on after it. -/
theorem CtrlEnd.mmioWrite {a : Nat} {v : Word} {k : State → State}
    (hk : CtrlEnd s (k (memWrite .ctrl .register a v s))) : CtrlEnd s (Machine.mmioWrite a v s k) := by
  rcases mmioWrite_cases a v s k with ⟨code, hm, e⟩ | ⟨_, e⟩ <;> rw [e]
  · exact .raises code _ (mmioFault_isFatal hm) rfl
  · exact hk

theorem fpReadStep_end (s : State) : CtrlEnd s (fpReadStep s) := by
  refine .mmioRead ?_
  split
  · exact .ok rfl rfl
  · exact .goesOn nofun (afterRead_results .ctrl .register _ s)

theorem fpWriteStep_end (hp : s.phase = .fpWrite) : CtrlEnd s (fpWriteStep s) := by
  refine .mmioWrite ?_
  split
  next hc =>
    rw [memWrite_lat] at hc
    rcases beginStage1_cases (memWrite .ctrl .register s.lat.addr.toNat s.lat.new s) with ⟨bad, e⟩ | ⟨_, e⟩ <;> rw [e]
    · simp only [compositeCode, memWrite_lat, memWrite_cfg] at bad
      exact .stage1Fails hp hc.1 bad rfl
    · exact .goesOn (by simp) (by simp [State.results])
  next => exact .ok rfl rfl

theorem bufAccessStep_end (s : State) : CtrlEnd s (bufAccessStep s) := by
  unfold bufAccessStep
  split <;> exact .ok rfl rfl

theorem waitWritableStep_end (s : State) : CtrlEnd s (waitWritableStep s) := by
  refine .mmioRead ?_
  split <;> exact .goesOn nofun (afterRead_results .ctrl .register _ s)

theorem publishStep_end (s : State) : CtrlEnd s (publishStep s) :=
  .mmioWrite (.goesOn nofun (memWrite_results .ctrl .register _ _ s))

theorem waitReadableStep_end (s : State) : CtrlEnd s (waitReadableStep s) := by
  refine .mmioRead ?_
  split <;> exact .goesOn nofun (afterRead_results .ctrl .register _ s)

theorem checkEchoStep_end (s : State) : CtrlEnd s (checkEchoStep s) := by
  refine .mmioRead ?_
  split <;> exact .goesOn nofun (afterRead_results .ctrl .register _ s)

theorem checkResponseStep_end (s : State) : CtrlEnd s (checkResponseStep s) := by
  rw [checkResponseStep, bufRead]
  split
  · exact .ok rfl rfl
  · exact .noFlag rfl rfl (afterRead_mem .ctrl .buffer _ s) ⟨_, afterRead_events .ctrl .buffer _ s, rfl⟩

/-- A controller step, in every phase that has one. -/
theorem ctrlStep_end (h : ctrlStep s = .next t) : CtrlEnd s t := by
  cases hp : s.phase with
  | idle => rw [ctrlStep_of_idle hp] at h; cases h; exact .goesOn (by rw [hp]; nofun) rfl
  | fpRead => rw [ctrlStep_of_fpRead hp] at h; cases h; exact fpReadStep_end s
  | fpWrite => rw [ctrlStep_of_fpWrite hp] at h; cases h; exact fpWriteStep_end hp
  | bufAccess => rw [ctrlStep_of_bufAccess hp] at h; cases h; exact bufAccessStep_end s
  | mbWaitWritable => rw [ctrlStep_of_waitWritable hp] at h; cases h; exact waitWritableStep_end s
  | mbPublish => rw [ctrlStep_of_publish hp] at h; cases h; exact publishStep_end s
  | mbWaitReadable => rw [ctrlStep_of_waitReadable hp] at h; cases h; exact waitReadableStep_end s
  | mbCheckEcho => rw [ctrlStep_of_checkEcho hp] at h; cases h; exact checkEchoStep_end s
  | mbCheckResponse => rw [ctrlStep_of_checkResponse hp] at h; cases h; exact checkResponseStep_end s
  | faulted => rw [ctrlStep_of_faulted hp] at h; cases h

/-! ## Recoverable errors (R201) -/

/-- A block with a command waiting accepts it on its turn in IDLE. -/
theorem blockTurn_of_waiting {c : Command} {cs : List Command} (hp : s.phase = .idle) (hq : s.port = c :: cs) :
    blockTurn s = issue c { s with port := cs } := by
  simp [blockTurn, hp, hq]

/-- The codes of R200 whose kind is "recoverable". -/
def ResCode.IsRecoverable (c : ResCode) : Prop := c = .errRange ∨ c = .errResponse ∨ c = .errIllegal

theorem ResCode.IsRecoverable.not_fatal {c : ResCode} (h : c.IsRecoverable) : c.isFatal ≠ true := by
  rcases h with rfl | rfl | rfl <;> decide

/-- A controller step that records a recoverable error has read a word that is not the flag. -/
theorem CtrlEnd.recoverable (h : CtrlEnd s t) (hne : t.results ≠ s.results) (hcode : t.resCode.IsRecoverable) :
    t.phase = .idle ∧ t.resCode = .errResponse ∧ t.mem = s.mem ∧ ∃ e, t.events = e :: s.events ∧ e.kind = .read := by
  cases h with
  | goesOn _ results => exact absurd results hne
  | ok _ code => rw [code] at hcode; exact absurd hcode (by simp [ResCode.IsRecoverable])
  | noFlag phase code mem read => exact ⟨phase, code, mem, read⟩
  | raises code info fatal result => subst result; exact absurd fatal hcode.not_fatal
  | stage1Fails _ _ _ code => rw [code] at hcode; exact absurd rfl hcode.not_fatal

/-- R201: a step that records a recoverable error ends the command and writes nothing; only Issue records a range error. -/
theorem step_recoverable (h : step s = .next t) (hne : t.results ≠ s.results) (hcode : t.resCode.IsRecoverable) :
    t.phase = .idle ∧ t.mem = s.mem ∧ (t.events = s.events ∨ ∃ e, t.events = e :: s.events ∧ e.kind = .read) ∧
      (t.resCode = .errRange → s.phase = .idle) := by
  cases (step_shape h).2 with
  | illegal _ _ idle _ _ result => subst result; exact ⟨rfl, rfl, .inl rfl, fun _ => idle⟩
  | issue _ _ _ idle _ _ _ result =>
    obtain ⟨-, hmem, -, -, -, -, -, hevents⟩ := exec_keeps result
    have ended := (exec_endsOrKeeps result).resolve_right hne
    have phase := ended.resolve_right fun hf => hcode.not_fatal (exec_isFatal_of_faulted result hf)
    exact ⟨phase, hmem, .inl hevents, fun _ => idle⟩
  | ctrl _ result =>
    obtain ⟨phase, code, hmem, read⟩ := (ctrlStep_end result).recoverable hne hcode
    exact ⟨phase, hmem, .inr read, fun hr => nomatch code.symm.trans hr⟩
  | answer _ _ _ _ result => subst result; exact absurd rfl hne
  | absorb _ _ result => subst result; exact absurd rfl hne
  | gpuWrite i v _ _ result => subst result; exact absurd (gpuWriteBuffer_results i v _) hne
  | reset _ _ result => subst result; exact absurd hcode (by simp [ResCode.IsRecoverable])

/-! ## Fatal conditions (R202) -/

/-- Under the invariant "begin stage 1" of R145 never fails: the pin has passed its check, and every function code fits. -/
theorem stage1_rangeCheck_eq_zero (hc : configWellFormed s.cfg = true) (hf : FieldLatchesOk s)
    (hop : s.lat.op = opGpioAlt3 ∨ s.lat.op = opGpioAlt5) :
    rangeCheck s.lat.pin (compositeCode s) fselWidth gpioMaxPin = 0 := by
  have hgpio : 3 ≤ s.lat.op.toNat := by rcases hop with h | h <;> rw [h] <;> decide
  refine rangeCheck_eq_zero.2 ⟨hf.gpioMax hgpio ▸ hf.pin, ?_⟩
  unfold compositeCode
  split
  · decide
  · exact configWellFormed_fselAlt5 hc

/-- The controller step that enters FAULTED only records the condition. -/
theorem ctrlStep_enters_faulted (hc : configWellFormed s.cfg = true) (hinv : s.phase = .fpWrite → FieldLatchesOk s)
    (h : ctrlStep s = .next t) (ht : t.phase = .faulted) : ∃ code info, t = raiseFatal code info s := by
  cases ctrlStep_end h with
  | goesOn phase _ => exact absurd ht phase
  | ok phase _ => exact nomatch phase.symm.trans ht
  | noFlag phase _ _ _ => exact nomatch phase.symm.trans ht
  | raises code info _ result => exact ⟨code, info, result⟩
  | stage1Fails writing composite bad _ => exact absurd (stage1_rangeCheck_eq_zero hc (hinv writing) composite) bad

/-- R202: the step that enters FAULTED makes no access. -/
theorem step_enters_faulted (hinv : Inv s) (h : step s = .next t) (hs : s.phase ≠ .faulted) (ht : t.phase = .faulted) :
    t.events = s.events ∧ t.mem = s.mem ∧ t.inbox = s.inbox := by
  obtain ⟨hc, shape⟩ := step_shape h
  cases shape with
  | illegal _ _ _ _ _ result => subst result; cases ht
  | issue _ _ _ _ _ _ _ result =>
    obtain ⟨-, hmem, -, hinbox, -, -, -, hevents⟩ := exec_keeps result
    exact ⟨hevents, hmem, hinbox⟩
  | ctrl _ result =>
    have field (hp : s.phase = .fpWrite) : FieldLatchesOk { s with turns := s.turns.tail } :=
      { hinv.field (.inr hp) with }
    obtain ⟨code, info, rfl⟩ := ctrlStep_enters_faulted (s := { s with turns := s.turns.tail }) hc field result ht
    exact ⟨rfl, rfl, rfl⟩
  | answer _ _ _ _ result => subst result; exact absurd ht hs
  | absorb _ _ result => subst result; exact absurd ht hs
  | gpuWrite _ _ _ _ result => subst result; exact absurd ((gpuWriteBuffer_phase ..).symm.trans ht) hs
  | reset _ _ result => subst result; cases ht

/-- In FAULTED the block's turn answers no next state. -/
theorem blockTurn_of_faulted (hp : s.phase = .faulted) : blockTurn s = .fault (haltFault s) := by
  simp [blockTurn, hp, ctrlStep_of_faulted]

/-- R202: a step taken in FAULTED is a reset, or keeps the phase, the record and the queue of commands. -/
theorem step_of_faulted (hp : s.phase = .faulted) (h : step s = .next t) :
    (t.phase = .faulted ∧ t.results = s.results ∧ t.port = s.port) ∨ ∃ ts, s.turns = .reset :: ts := by
  cases (step_shape h).2 with
  | illegal _ _ idle _ _ _ => exact nomatch idle.symm.trans hp
  | issue _ _ _ idle _ _ _ _ => exact nomatch idle.symm.trans hp
  | ctrl _ result => exact nomatch (ctrlStep_of_faulted (s := { s with turns := s.turns.tail }) hp).symm.trans result
  | answer _ _ _ _ result => subst result; exact .inl ⟨hp, rfl, rfl⟩
  | absorb _ _ result => subst result; exact .inl ⟨hp, rfl, rfl⟩
  | gpuWrite i v ts _ result =>
    subst result
    exact .inl ⟨(gpuWriteBuffer_phase ..).trans hp, gpuWriteBuffer_results i v _,
      (gpuWriteBuffer_port_turns i v { s with turns := ts }).1⟩
  | reset ts turn _ => exact .inr ⟨ts, turn⟩

end

/-! ## The obligations -/

/-- Settles O55: `complete` by its definition, the next Issue by the block's turn, the errors by the shape of the step. -/
theorem completeEndsACommand : Obligations.CompleteEndsACommand :=
  ⟨fun _ _ _ _ => ⟨rfl, fun _ _ hport => blockTurn_of_waiting rfl hport⟩, fun _ _ h hne hcode => step_recoverable h hne hcode⟩

/-- Settles O56: the step into FAULTED raises in place of its access, and there the block's turn has no next state. -/
theorem fatalConditionIsSticky : Obligations.FatalConditionIsSticky := by
  refine ⟨fun _ _ hinv h hs ht => step_enters_faulted hinv h hs ht, fun _ _ _ => rfl, fun s hp => ?_, fun s t hp h => ?_⟩
  · exact ⟨(faultFlag_iff s).2 hp, by simp [State.busy, hp], fun t ht => nomatch (blockTurn_of_faulted hp).symm.trans ht⟩
  · refine (step_of_faulted hp h).imp_left fun ⟨phase, results, port⟩ => ?_
    obtain ⟨code, data, info⟩ := results_eq_iff.1 results
    exact ⟨phase, code, info, data, port⟩

end Sys2Proof.Machine
end

section
/-! PROOFS, family 30_encoding.md: encoding and decoding are inverse to each other (R90-R94). The decoder is read once on a
CMD put together from fields, and its answer once by kind of opcode. -/

namespace Sys2Proof

open Sys2Proof.Claims

/-! ## Decoding a CMD put together from its fields -/

section
variable {op ch : BitVec 4} {pin : BitVec 8} {w : BitVec 6} {maxp : BitVec 8} {i : Instr}

/-- On a CMD put together from its fields the decoder looks at the opcode only to choose the kind. -/
theorem decodePacker_cmdWord (hw : widthLegal w = true) : decodePacker (cmdWord op 0#4 pin w maxp) i = .legal i := by
  simp [decodePacker, chOf_cmdWord, widthOf_cmdWord, hw]

theorem decodeGpio_cmdWord : decodeGpio (cmdWord op 0#4 pin 0#6 0#8) i = .legal i := by
  simp [decodeGpio, chOf_cmdWord, widthOf_cmdWord, maxpOf_cmdWord]

theorem decodeBuffer_cmdWord : decodeBuffer (cmdWord op 0#4 0#8 0#6 0#8) i = .legal i := by
  simp [decodeBuffer, chOf_cmdWord, pinOf_cmdWord, widthOf_cmdWord, maxpOf_cmdWord]

end

/-- The decoder's answer on the encoding of a well-formed command. -/
theorem decodeCommand_encode {i : Instr} (h : i.wellFormed = true) : decodeCommand (encode i) = .legal i := by
  cases i with
  | pack pin w maxp base value =>
    simp +decide [decodeCommand, encode, decode, rsvOf_cmdWord, opOf_cmdWord, pinOf_cmdWord, widthOf_cmdWord,
      maxpOf_cmdWord, decodePacker_cmdWord h]
  | unpack pin w maxp base =>
    simp +decide [decodeCommand, encode, decode, rsvOf_cmdWord, opOf_cmdWord, pinOf_cmdWord, widthOf_cmdWord,
      maxpOf_cmdWord, decodePacker_cmdWord h]
  | gpioSet pin | gpioClr pin | gpioPull pin state | gpioFsel pin function | gpioAlt3 pin | gpioAlt5 pin =>
    simp +decide [decodeCommand, encode, decode, rsvOf_cmdWord, opOf_cmdWord, pinOf_cmdWord, decodeGpio_cmdWord]
  | bufWr index value | bufRd index | bufAddr =>
    simp +decide [decodeCommand, encode, decode, rsvOf_cmdWord, opOf_cmdWord, decodeBuffer_cmdWord]
  | mboxCallFb => exact decode_eq_mboxCallFb.2 (by decide)
  | mboxCallProp => exact decode_eq_mboxCallProp.2 (by decide)

/-- Settles O2: the fields read back are the fields written, so the decoder chooses the command's own row. -/
theorem decodeOfEncode : Obligations.DecodeOfEncode := fun _ h => decodeCommand_encode h

/-! ## The fields of a CMD that decodes -/

section
variable {cmd opa opb : Word} {i j : Instr}

theorem decodePacker_eq_legal : decodePacker cmd i = .legal j ↔
    i = j ∧ chOf cmd = 0 ∧ widthLegal (widthOf cmd) = true := by
  unfold decodePacker
  split_ifs <;> simp_all

theorem decodeGpio_eq_legal : decodeGpio cmd i = .legal j ↔
    i = j ∧ chOf cmd = 0 ∧ widthOf cmd = 0 ∧ maxpOf cmd = 0 := by
  unfold decodeGpio
  split_ifs <;> simp_all

/-- A word is put together from any values its fields are known to have. -/
theorem cmdWord_eq_of_fields {op ch : BitVec 4} {pin : BitVec 8} {w : BitVec 6} {maxp : BitVec 8} (hrsv : rsvOf cmd = 0)
    (hop : opOf cmd = op) (hch : chOf cmd = ch) (hpin : pinOf cmd = pin) (hw : widthOf cmd = w)
    (hmaxp : maxpOf cmd = maxp) : cmdWord op ch pin w maxp = cmd := by
  subst hop hch hpin hw hmaxp
  exact cmdWord_of_fields hrsv

/-- `cmd`, `opa` and `opb` are the words of the well-formed command `i`, but for an operand word it ignores. -/
structure WordsOf (i : Instr) (cmd opa opb : Word) : Prop where
  cmd : (encode i).cmd = cmd
  wellFormed : i.wellFormed = true
  opa : (encode i).opa = if usesOpa i then opa else 0
  opb : (encode i).opb = if usesOpb i then opb else 0

/-- The words the decoder reads a command from are its words. -/
theorem wordsOf_of_decode (h : decode cmd opa opb = .legal i) : WordsOf i cmd opa opb := by
  have legal : (decode cmd opa opb).isLegal = true := by rw [h]; rfl
  obtain ⟨hrsv, -⟩ := opcode_of_decode h
  rcases opcode_kinds (opOf cmd) with reserved | packer | gpio | buffer | mboxCall
  · exact ((legalWhen_of_reserved opa opb hrsv reserved).decoded.1 legal).elim
  · rcases packer with hop | hop <;> simp +decide only [decode, hrsv, hop, ite_true, ite_false] at h <;>
      obtain ⟨rfl, hch, hw⟩ := decodePacker_eq_legal.1 h <;>
      exact ⟨cmdWord_eq_of_fields hrsv hop hch rfl rfl rfl, hw, rfl, rfl⟩
  · rcases gpio with hop | hop | hop | hop | hop | hop <;>
      simp +decide only [decode, hrsv, hop, ite_true, ite_false] at h <;>
      obtain ⟨rfl, hch, hw, hmaxp⟩ := decodeGpio_eq_legal.1 h <;>
      exact ⟨cmdWord_eq_of_fields hrsv hop hch rfl hw hmaxp, rfl, rfl, rfl⟩
  · rcases buffer with hop | hop | hop <;> simp +decide only [decode, hrsv, hop, ite_true, ite_false] at h <;>
      obtain ⟨rfl, hch, hpin, hw, hmaxp⟩ := decodeBuffer_eq_legal.1 h <;>
      exact ⟨cmdWord_eq_of_fields hrsv hop hch hpin hw hmaxp, rfl, rfl, rfl⟩
  · rw [decode_of_opMboxCall hrsv mboxCall] at h
    rcases eq_of_decodeMboxCall h with rfl | rfl
    · obtain ⟨hch, hpin, hw, hmaxp⟩ := decodeMboxCall_eq_fb.1 h
      exact ⟨cmdWord_eq_of_fields hrsv mboxCall hch hpin hw hmaxp, rfl, rfl, rfl⟩
    · obtain ⟨hch, hpin, hw, hmaxp⟩ := decodeMboxCall_eq_prop.1 h
      exact ⟨cmdWord_eq_of_fields hrsv mboxCall hch hpin hw hmaxp, rfl, rfl, rfl⟩

end

/-- Settles O3: by kind of opcode, the fields a legal CMD may have are those its command is encoded with. -/
theorem encodeOfDecode : Obligations.EncodeOfDecode := fun _ _ _ _ h => by
  obtain ⟨hcmd, hwf, hopa, hopb⟩ := wordsOf_of_decode h
  exact ⟨hcmd, hwf, hopa, hopb⟩

/-- Settles O1: each word is decoded by evaluation. -/
theorem decodesTheSpecsWords : Obligations.DecodesTheSpecsWords := by
  unfold Obligations.DecodesTheSpecsWords
  decide

end Sys2Proof

namespace Sys2Proof.Machine

/-- Settles O53: by evaluation, and by cases on the code. -/
theorem resultCodeNumbers : Obligations.ResultCodeNumbers := by
  refine ⟨by decide, fun c => ?_⟩
  cases c <;> decide

end Sys2Proof.Machine
end

section
/-! PROOFS, family 30_encoding.md: the assembler (R101). A numeral is read back digit by digit, a written-out line piece by
piece; a mnemonic's operands are rejected exactly when they do not fit. -/

namespace Sys2Proof.Machine

open Sys2Proof.Claims

/-! ## Reading a numeral -/

theorem hexDigit_digitChar : ∀ d : Nat, d < 16 → hexDigit d.digitChar = some d := by decide

theorem digitsFrom_append (base acc : Nat) (l m : List Char) :
    digitsFrom base acc (l ++ m) = (digitsFrom base acc l).bind fun a => digitsFrom base a m := by
  induction l generalizing acc with
  | nil => rfl
  | cons c l ih =>
    rw [List.cons_append, digitsFrom, digitsFrom]
    split
    · split
      · exact ih _
      · rfl
    · rfl

theorem digitsFrom_digitChar {base d : Nat} (acc : Nat) (hb : base ≤ 16) (hd : d < base) :
    digitsFrom base acc [d.digitChar] = some (acc * base + d) := by
  simp [digitsFrom, hexDigit_digitChar d (by omega), hd]

/-- The digits of a number in a base are read back as the number. -/
theorem digitsFrom_toDigits {base : Nat} (h1 : 1 < base) (h16 : base ≤ 16) (n : Nat) :
    digitsFrom base 0 (Nat.toDigits base n) = some n := by
  induction n using Nat.strongRecOn with
  | ind n ih =>
    rw [Nat.toDigits_eq_if h1]
    split
    next hlt => rw [digitsFrom_digitChar 0 h16 hlt, Nat.zero_mul, Nat.zero_add]
    next hge =>
      have hsmaller : n / base < n := Nat.div_lt_self (by omega) h1
      have hdigit : n % base < base := Nat.mod_lt n (by omega)
      rw [digitsFrom_append, ih _ hsmaller, Option.bind_some, digitsFrom_digitChar _ h16 hdigit, Nat.div_add_mod']

/-- A numeral is neither empty nor holds a blank or a comma, so a line's pieces are told apart. -/
structure IsPiece (text : List Char) : Prop where
  nonempty : text ≠ []
  noBlank : ' ' ∉ text
  noComma : ',' ∉ text

theorem digitChar_ne {c : Char} (hc : hexDigit c = none) (d : Nat) (hd : d < 16) : d.digitChar ≠ c := by
  rintro rfl
  rw [hexDigit_digitChar d hd] at hc
  cases hc

/-- The digits of a number are hexadecimal digits. -/
theorem notMem_toDigits {base : Nat} {c : Char} (h1 : 1 < base) (h16 : base ≤ 16) (hc : hexDigit c = none) (n : Nat) :
    c ∉ Nat.toDigits base n := by
  induction n using Nat.strongRecOn with
  | ind n ih =>
    rw [Nat.toDigits_eq_if h1]
    split
    next hlt => simpa using (digitChar_ne hc n (by omega)).symm
    next hge =>
      have hdigit : n % base < 16 := Nat.lt_of_lt_of_le (Nat.mod_lt n (by omega)) h16
      simpa using ⟨ih _ (Nat.div_lt_self (by omega) h1), (digitChar_ne hc _ hdigit).symm⟩

theorem isPiece_of_isNumeral {n : Nat} {text : List Char} (h : IsNumeral n text) : IsPiece text := by
  rcases h with rfl | rfl
  · exact ⟨Nat.toDigits_ne_nil, notMem_toDigits (by decide) (by decide) (by decide) n,
      notMem_toDigits (by decide) (by decide) (by decide) n⟩
  · have hblank : ' ' ∉ Nat.toDigits 16 n := notMem_toDigits (by decide) (by decide) (by decide) n
    have hcomma : ',' ∉ Nat.toDigits 16 n := notMem_toDigits (by decide) (by decide) (by decide) n
    exact ⟨List.cons_ne_nil _ _, by simp [hblank], by simp [hcomma]⟩

theorem parseOperand_decimal {c : Char} {l : List Char} (hx : 'x' ∉ c :: l) :
    parseOperand (c :: l) = digitsFrom 10 0 (c :: l) := by
  unfold parseOperand
  split
  next h => cases h
  next h => simp [List.cons.inj h] at hx
  next h => rw [h]

theorem parseOperand_of_isNumeral {n : Nat} {text : List Char} (h : IsNumeral n text) : parseOperand text = some n := by
  rcases h with rfl | rfl
  · have hx : 'x' ∉ Nat.toDigits 10 n := notMem_toDigits (by decide) (by decide) (by decide) n
    rw [← digitsFrom_toDigits (base := 10) (by decide) (by decide) n]
    cases hd : Nat.toDigits 10 n with
    | nil => exact absurd hd Nat.toDigits_ne_nil
    | cons c l => exact parseOperand_decimal (hd ▸ hx)
  · rw [← digitsFrom_toDigits (base := 16) (by decide) (by decide) n]
    cases hd : Nat.toDigits 16 n with
    | nil => exact absurd hd Nat.toDigits_ne_nil
    | cons c l => rfl

/-! ## Reading a line -/

theorem dropBlanks_eq_self {l : List Char} (h : l.head? ≠ some ' ') : l.dropWhile (· == ' ') = l := by
  cases l with
  | nil => rfl
  | cons c l => simp_all

/-- A list that neither begins nor ends with a blank has none to take off. -/
theorem trimBlanks_eq_self {l : List Char} (hhead : l.head? ≠ some ' ') (hlast : l.getLast? ≠ some ' ') :
    trimBlanks l = l := by
  rw [← List.head?_reverse] at hlast
  rw [trimBlanks, dropBlanks_eq_self hhead, dropBlanks_eq_self hlast, List.reverse_reverse]

theorem trimBlanks_blank_cons (l : List Char) : trimBlanks (' ' :: l) = trimBlanks l := rfl

theorem trimBlanks_append_blank {l : List Char} (hne : l ≠ []) (hhead : l.head? ≠ some ' ') :
    trimBlanks (l ++ [' ']) = trimBlanks l := by
  have hhead' : (l ++ [' ']).head? ≠ some ' ' := by rwa [List.head?_append_of_ne_nil l hne]
  rw [trimBlanks, dropBlanks_eq_self hhead', trimBlanks, dropBlanks_eq_self hhead, List.reverse_append]
  rfl

theorem head?_ne_blank {l : List Char} (h : ' ' ∉ l) : l.head? ≠ some ' ' := fun e => h (List.mem_of_head? e)

theorem getLast?_ne_blank {l : List Char} (h : ' ' ∉ l) : l.getLast? ≠ some ' ' := fun e => h (List.mem_of_getLast? e)

/-- The operands of a line as `lineOf` writes them. -/
def operandList (texts : List (List Char)) : List Char := [',', ' '].intercalate texts

section
variable {text : List Char} {texts : List (List Char)}

theorem operandList_singleton : operandList [text] = text := List.intercalate_singleton

theorem operandList_cons_cons {text' : List Char} :
    operandList (text :: text' :: texts) = text ++ ',' :: ' ' :: operandList (text' :: texts) := by
  rw [operandList, List.intercalate_cons_cons, List.append_assoc]
  rfl

theorem operandList_head? (h : IsPiece text) : (operandList (text :: texts)).head? = text.head? := by
  cases texts with
  | nil => rw [operandList_singleton]
  | cons text' texts => rw [operandList_cons_cons, List.head?_append_of_ne_nil text h.nonempty]

theorem operandList_ne_nil (h : IsPiece text) : operandList (text :: texts) ≠ [] := fun e => by
  have hhead := operandList_head? (texts := texts) h
  rw [e] at hhead
  exact h.nonempty (List.head?_eq_none_iff.1 hhead.symm)

theorem operandList_getLast? (h : ∀ t ∈ text :: texts, IsPiece t) :
    (operandList (text :: texts)).getLast? ≠ some ' ' := by
  induction texts generalizing text with
  | nil =>
    rw [operandList_singleton]
    exact getLast?_ne_blank (h text (by simp)).noBlank
  | cons text' texts ih =>
    obtain ⟨_, hrest⟩ := List.forall_mem_cons.1 h
    have hne := operandList_ne_nil (texts := texts) (hrest text' (by simp))
    have assoc : operandList (text :: text' :: texts) = (text ++ [',', ' ']) ++ operandList (text' :: texts) :=
      List.intercalate_cons_cons
    rw [assoc, List.getLast?_append_of_ne_nil _ hne]
    exact ih hrest

/-- An operand list begins and ends with a numeral. -/
theorem trimBlanks_operandList (h : ∀ t ∈ text :: texts, IsPiece t) :
    trimBlanks (operandList (text :: texts)) = operandList (text :: texts) := by
  have hpiece := h text (by simp)
  exact trimBlanks_eq_self (operandList_head? hpiece ▸ head?_ne_blank hpiece.noBlank) (operandList_getLast? h)

theorem splitCommas_of_noComma {l : List Char} (h : ',' ∉ l) : splitCommas l = [l] := by
  induction l with
  | nil => rfl
  | cons c l ih =>
    obtain ⟨hc, hl⟩ := not_or.1 (List.mem_cons.not.1 h)
    rw [splitCommas, if_neg (Ne.symm hc), ih hl]

theorem splitCommas_append {l m : List Char} (h : ',' ∉ l) : splitCommas (l ++ ',' :: m) = l :: splitCommas m := by
  induction l with
  | nil => rfl
  | cons c l ih =>
    obtain ⟨hc, hl⟩ := not_or.1 (List.mem_cons.not.1 h)
    rw [List.cons_append, splitCommas, if_neg (Ne.symm hc), ih hl]

/-- The pieces between the commas are the numerals, each after a blank. -/
theorem splitCommas_operandList (h : ∀ t ∈ text :: texts, IsPiece t) :
    splitCommas (' ' :: operandList (text :: texts)) = (text :: texts).map (' ' :: ·) := by
  have hcomma (t : List Char) (ht : IsPiece t) : ',' ∉ ' ' :: t := by simpa using ht.noComma
  induction texts generalizing text with
  | nil =>
    rw [operandList_singleton, splitCommas_of_noComma (hcomma text (h text (by simp)))]
    rfl
  | cons text' texts ih =>
    obtain ⟨hpiece, hrest⟩ := List.forall_mem_cons.1 h
    rw [operandList_cons_cons, ← List.cons_append, splitCommas_append (hcomma text hpiece), ih hrest]
    rfl

end

theorem isPiece_of_isNumerals {ops : List Nat} {texts : List (List Char)} (h : List.Forall₂ IsNumeral ops texts) :
    ∀ t ∈ texts, IsPiece t := by
  induction h with
  | nil => simp
  | cons hn _ ih => exact List.forall_mem_cons.2 ⟨isPiece_of_isNumeral hn, ih⟩

theorem mapM_parseOperand {ops : List Nat} {texts : List (List Char)} (h : List.Forall₂ IsNumeral ops texts) :
    (texts.map (' ' :: ·)).mapM (fun p => parseOperand (trimBlanks p)) = some ops := by
  induction h with
  | nil => rfl
  | cons hn _ ih =>
    have hpiece := isPiece_of_isNumeral hn
    rw [List.map_cons, List.mapM_cons, ih, trimBlanks_blank_cons,
      trimBlanks_eq_self (head?_ne_blank hpiece.noBlank) (getLast?_ne_blank hpiece.noBlank), parseOperand_of_isNumeral hn]
    rfl

/-- The operands of a written-out line are the numbers its numerals stand for. -/
theorem parseOperands_operandList {op : Nat} {ops : List Nat} {text : List Char} {texts : List (List Char)}
    (h : List.Forall₂ IsNumeral (op :: ops) (text :: texts)) :
    parseOperands (' ' :: operandList (text :: texts)) = some (op :: ops) := by
  have hpieces := isPiece_of_isNumerals h
  have hne : trimBlanks (' ' :: operandList (text :: texts)) ≠ [] := by
    rw [trimBlanks_blank_cons, trimBlanks_operandList hpieces]
    exact operandList_ne_nil (hpieces text (by simp))
  rw [parseOperands, if_neg hne, splitCommas_operandList hpieces, mapM_parseOperand h]

theorem ne_blank_of_notMem {l : List Char} (h : ' ' ∉ l) : ∀ c ∈ l, (c != ' ') = true := fun _ hc =>
  bne_iff_ne.2 fun e => h (e ▸ hc)

theorem takeWhile_name {name rest : List Char} (h : ' ' ∉ name) :
    (name ++ ' ' :: rest).takeWhile (· != ' ') = name ∧ (name ++ ' ' :: rest).dropWhile (· != ' ') = ' ' :: rest := by
  have hname := ne_blank_of_notMem h
  rw [List.takeWhile_append_of_pos hname, List.dropWhile_append_of_pos hname]
  simp

theorem assembleLine_ofList (l : List Char) : assembleLine (String.ofList l) =
    (parseOperands ((trimBlanks l).dropWhile (· != ' '))).bind fun ops =>
      (instrOfLine ((trimBlanks l).takeWhile (· != ' ')) ops).map encode := by
  rw [assembleLine, String.toList_ofList]

/-- A line written out from a name without blanks and numerals is read as that name and those numbers. -/
theorem assembleLine_lineOf {name : String} {ops : List Nat} {texts : List (List Char)} (hne : name.toList ≠ [])
    (hblank : ' ' ∉ name.toList) (h : List.Forall₂ IsNumeral ops texts) :
    assembleLine (lineOf name texts) = (instrOfLine name.toList ops).map encode := by
  have hhead := head?_ne_blank hblank
  change assembleLine (String.ofList (name.toList ++ ' ' :: operandList texts)) = _
  rw [assembleLine_ofList]
  cases h with
  | nil =>
    have htrim : trimBlanks (name.toList ++ ' ' :: operandList []) = name.toList := by
      rw [operandList, List.intercalate_nil, trimBlanks_append_blank hne hhead,
        trimBlanks_eq_self hhead (getLast?_ne_blank hblank)]
    rw [htrim, List.takeWhile_eq_self_iff.2 (ne_blank_of_notMem hblank),
      List.dropWhile_eq_nil_iff.2 (ne_blank_of_notMem hblank)]
    rfl
  | @cons op text ops texts hn hrest =>
    have hpieces := isPiece_of_isNumerals (.cons hn hrest)
    have hlast : (name.toList ++ ' ' :: operandList (text :: texts)).getLast? ≠ some ' ' := by
      rw [← List.singleton_append, ← List.append_assoc,
        List.getLast?_append_of_ne_nil _ (operandList_ne_nil (hpieces text (by simp)))]
      exact operandList_getLast? hpieces
    rw [trimBlanks_eq_self (by rwa [List.head?_append_of_ne_nil _ hne]) hlast]
    obtain ⟨htake, hdrop⟩ := takeWhile_name (rest := operandList (text :: texts)) hblank
    rw [htake, hdrop, parseOperands_operandList (.cons hn hrest)]
    rfl

theorem mnemonics_names : ∀ e ∈ mnemonics, e.1.toList ≠ [] ∧ ' ' ∉ e.1.toList := by decide

/-! ## The command of a mnemonic and its operands -/

section
variable {p w m b v : Nat}

@[simp] theorem asPin_eq_none : asPin p = none ↔ 255 < p := by simp [asPin]
@[simp] theorem asWord_eq_none : asWord v = none ↔ 2 ^ 32 ≤ v := by simp [asWord]
@[simp] theorem asWidth_eq_none : asWidth w = none ↔ w = 0 ∨ 32 < w := by simp [asWidth]; omega

theorem asPin_of_le (h : p ≤ 255) : asPin p = some (BitVec.ofNat 8 p) := if_pos h
theorem asWord_of_lt (h : v < 2 ^ 32) : asWord v = some (BitVec.ofNat 32 v) := if_pos h
theorem asWidth_of_le (h : 1 ≤ w) (h' : w ≤ 32) : asWidth w = some (BitVec.ofNat 6 w) := if_pos ⟨h, h'⟩

/-- A PACK line on operands that fit. -/
theorem asmPack_of_fits (hp : p ≤ 255) (hw : 1 ≤ w) (hw' : w ≤ 32) (hm : m ≤ 255) (hb : b < 2 ^ 32) (hv : v < 2 ^ 32) :
    asmPack p w m b v = some
      (.pack (BitVec.ofNat 8 p) (BitVec.ofNat 6 w) (BitVec.ofNat 8 m) (BitVec.ofNat 32 b) (BitVec.ofNat 32 v)) := by
  simp [asmPack, asPin_of_le hp, asWidth_of_le hw hw', asPin_of_le hm, asWord_of_lt hb, asWord_of_lt hv]

/-- An UNPACK line on operands that fit. -/
theorem asmUnpack_of_fits (hp : p ≤ 255) (hw : 1 ≤ w) (hw' : w ≤ 32) (hm : m ≤ 255) (hb : b < 2 ^ 32) :
    asmUnpack p w m b = some
      (.unpack (BitVec.ofNat 8 p) (BitVec.ofNat 6 w) (BitVec.ofNat 8 m) (BitVec.ofNat 32 b)) := by
  simp [asmUnpack, asPin_of_le hp, asWidth_of_le hw hw', asPin_of_le hm, asWord_of_lt hb]

/-- An operand that does not read as a field or word stops the line. -/
theorem bind_eq_none_iff_of_isSome {α β : Type} {x : Option α} {f : α → Option β} {q : Prop}
    (hf : ∀ a, f a = none ↔ q) : x.bind f = none ↔ x = none ∨ q := by
  cases x <;> simp [hf]

theorem asmPack_eq_none : asmPack p w m b v = none ↔
    255 < p ∨ (w = 0 ∨ 32 < w) ∨ 255 < m ∨ 2 ^ 32 ≤ b ∨ 2 ^ 32 ≤ v := by
  unfold asmPack
  rw [bind_eq_none_iff_of_isSome fun _ => bind_eq_none_iff_of_isSome fun _ => bind_eq_none_iff_of_isSome fun _ =>
    bind_eq_none_iff_of_isSome fun _ => Option.map_eq_none_iff, asPin_eq_none, asPin_eq_none, asWidth_eq_none,
    asWord_eq_none, asWord_eq_none]

theorem asmUnpack_eq_none : asmUnpack p w m b = none ↔ 255 < p ∨ (w = 0 ∨ 32 < w) ∨ 255 < m ∨ 2 ^ 32 ≤ b := by
  unfold asmUnpack
  rw [bind_eq_none_iff_of_isSome fun _ => bind_eq_none_iff_of_isSome fun _ => bind_eq_none_iff_of_isSome fun _ =>
    Option.map_eq_none_iff, asPin_eq_none, asPin_eq_none, asWidth_eq_none, asWord_eq_none]

end

/-! ## The obligations -/

/-- A width the assembler admits is one the command may have. -/
theorem widthLegal_of_asWidth {n : Nat} {w : BitVec 6} (h : asWidth n = some w) : widthLegal w = true := by
  unfold asWidth at h
  split_ifs at h with hn
  cases h
  simp [widthLegal, Nat.mod_eq_of_lt (show n < 64 by omega), hn]

theorem wellFormed_of_asm0 {name : List Char} {i : Instr} (h : asm0 name = some i) : i.wellFormed = true := by
  unfold asm0 at h
  split_ifs at h <;> cases h <;> rfl

theorem wellFormed_of_asChannel {n : Nat} {i : Instr} (h : asChannel n = some i) : i.wellFormed = true := by
  unfold asChannel at h
  split_ifs at h <;> cases h <;> rfl

theorem wellFormed_of_asm1 {name : List Char} {a : Nat} {i : Instr} (h : asm1 name a = some i) : i.wellFormed = true := by
  unfold asm1 at h
  split_ifs at h
  iterate 6 · obtain ⟨_, _, rfl⟩ := Option.map_eq_some_iff.1 h; rfl
  · exact wellFormed_of_asChannel h

theorem wellFormed_of_asm2 {name : List Char} {a b : Nat} {i : Instr} (h : asm2 name a b = some i) :
    i.wellFormed = true := by
  unfold asm2 at h
  split_ifs at h <;>
    obtain ⟨_, _, h⟩ := Option.bind_eq_some_iff.1 h <;>
    obtain ⟨_, _, rfl⟩ := Option.map_eq_some_iff.1 h <;> rfl

theorem wellFormed_of_asmUnpack {p w m b : Nat} {i : Instr} (h : asmUnpack p w m b = some i) : i.wellFormed = true := by
  obtain ⟨_, _, h⟩ := Option.bind_eq_some_iff.1 h
  obtain ⟨_, hw, h⟩ := Option.bind_eq_some_iff.1 h
  obtain ⟨_, _, h⟩ := Option.bind_eq_some_iff.1 h
  obtain ⟨_, _, rfl⟩ := Option.map_eq_some_iff.1 h
  exact widthLegal_of_asWidth hw

theorem wellFormed_of_asmPack {p w m b v : Nat} {i : Instr} (h : asmPack p w m b v = some i) : i.wellFormed = true := by
  obtain ⟨_, _, h⟩ := Option.bind_eq_some_iff.1 h
  obtain ⟨_, hw, h⟩ := Option.bind_eq_some_iff.1 h
  obtain ⟨_, _, h⟩ := Option.bind_eq_some_iff.1 h
  obtain ⟨_, _, h⟩ := Option.bind_eq_some_iff.1 h
  obtain ⟨_, _, rfl⟩ := Option.map_eq_some_iff.1 h
  exact widthLegal_of_asWidth hw

/-- Whatever the line, the assembler gives a well-formed command. -/
theorem wellFormed_of_instrOfLine {name : List Char} {ops : List Nat} {i : Instr} (h : instrOfLine name ops = some i) :
    i.wellFormed = true := by
  unfold instrOfLine at h
  split at h
  · exact wellFormed_of_asm0 h
  · exact wellFormed_of_asm1 h
  · exact wellFormed_of_asm2 h
  · split at h
    · exact wellFormed_of_asmUnpack h
    · cases h
  · split at h
    · exact wellFormed_of_asmPack h
    · cases h
  · cases h

/-- The words the assembler answers are those of a well-formed command. -/
theorem assembleLine_eq_some {line : String} {c : Command} (h : assembleLine line = some c) :
    ∃ i : Instr, i.wellFormed = true ∧ c = encode i := by
  obtain ⟨ops, _, h⟩ := Option.bind_eq_some_iff.1 h
  obtain ⟨i, hi, rfl⟩ := Option.map_eq_some_iff.1 h
  exact ⟨i, wellFormed_of_instrOfLine hi, rfl⟩

/-! ### Each mnemonic's own command -/

section
variable {p i v : Nat}

theorem instrOfLine_gpioSet : instrOfLine "GPIO.SET".toList [p] = (asPin p).map .gpioSet := rfl
theorem instrOfLine_gpioClr : instrOfLine "GPIO.CLR".toList [p] = (asPin p).map .gpioClr := rfl
theorem instrOfLine_gpioAlt3 : instrOfLine "GPIO.ALT3".toList [p] = (asPin p).map .gpioAlt3 := rfl
theorem instrOfLine_gpioAlt5 : instrOfLine "GPIO.ALT5".toList [p] = (asPin p).map .gpioAlt5 := rfl
theorem instrOfLine_gpioPullNone : instrOfLine "GPIO.PULL.NONE".toList [p] = (asPin p).map fun pin => .gpioPull pin 0 := rfl
theorem instrOfLine_gpioPull : instrOfLine "GPIO.PULL".toList [p, v] =
    (asPin p).bind fun pin => (asWord v).map fun v => .gpioPull pin v := rfl
theorem instrOfLine_gpioFsel : instrOfLine "GPIO.FSEL".toList [p, v] =
    (asPin p).bind fun pin => (asWord v).map fun v => .gpioFsel pin v := rfl
theorem instrOfLine_bufWr : instrOfLine "BUF.WR".toList [i, v] =
    (asWord i).bind fun i => (asWord v).map fun v => .bufWr i v := rfl
theorem instrOfLine_bufRd : instrOfLine "BUF.RD".toList [i] = (asWord i).map .bufRd := rfl
theorem instrOfLine_mboxCall : instrOfLine "MBOX.CALL".toList [p] = asChannel p := rfl
theorem instrOfLine_unpack {p w m b : Nat} : instrOfLine "UNPACK".toList [p, w, m, b] = asmUnpack p w m b := rfl
theorem instrOfLine_pack {p w m b v : Nat} : instrOfLine "PACK".toList [p, w, m, b, v] = asmPack p w m b v := rfl
end

/-- A name that is no mnemonic of this many operands is rejected. -/
theorem instrOfLine_of_unknown {name : List Char} {ops : List Nat}
    (h : ∀ e ∈ mnemonics, name = e.1.toList → ops.length ≠ e.2) : instrOfLine name ops = none := by
  have other (k : Nat) (hk : ops.length = k) (n : String) (he : (n, k) ∈ mnemonics) : name ≠ n.toList :=
    fun e => h _ he e hk
  match ops with
  | [] =>
    have other := other 0 rfl
    simp only [instrOfLine, asm0, other "BUF.ADDR" (by decide), other "MBOX.CALL.FB" (by decide),
      other "MBOX.CALL.PROP" (by decide), ite_false]
  | [_] =>
    have other := other 1 rfl
    simp only [instrOfLine, asm1, other "GPIO.SET" (by decide), other "GPIO.CLR" (by decide),
      other "GPIO.ALT3" (by decide), other "GPIO.ALT5" (by decide), other "GPIO.PULL.NONE" (by decide),
      other "BUF.RD" (by decide), other "MBOX.CALL" (by decide), ite_false]
  | [_, _] =>
    have other := other 2 rfl
    simp only [instrOfLine, asm2, other "GPIO.PULL" (by decide), other "GPIO.FSEL" (by decide),
      other "BUF.WR" (by decide), ite_false]
  | [_, _, _] => rfl
  | [_, _, _, _] => exact if_neg (other 4 rfl "UNPACK" (by decide))
  | [_, _, _, _, _] => exact if_neg (other 5 rfl "PACK" (by decide))
  | _ :: _ :: _ :: _ :: _ :: _ :: _ => rfl

/-! ### The obligations -/

/-- Settles O5: a line gives a well-formed command or nothing, numerals are read back as their numbers, and each mnemonic
is looked up. -/
theorem assembledLinesDecode : Obligations.AssembledLinesDecode := by
  refine ⟨fun line c h => ?_, fun name k ops texts hname htexts => ?_, fun p w m b v hp hw hw' hm hb hv => ?_, rfl,
    fun _ => rfl, rfl, rfl⟩
  · obtain ⟨i, hwf, rfl⟩ := assembleLine_eq_some h
    exact ⟨i, hwf, rfl, decodeCommand_encode hwf⟩
  · obtain ⟨hne, hblank⟩ := mnemonics_names _ hname
    exact assembleLine_lineOf hne hblank htexts
  · refine ⟨asmPack_of_fits hp hw hw' hm hb hv, asmUnpack_of_fits hp hw hw' hm hb, ?_⟩
    rw [instrOfLine_gpioSet, instrOfLine_gpioClr, instrOfLine_gpioPull, instrOfLine_gpioFsel, instrOfLine_gpioAlt3,
      instrOfLine_gpioAlt5, instrOfLine_gpioPullNone, instrOfLine_gpioPull, instrOfLine_bufWr, instrOfLine_bufRd,
      asPin_of_le hp, asWord_of_lt hb, asWord_of_lt hv]
    exact ⟨rfl, rfl, rfl, rfl, rfl, rfl, rfl, rfl, rfl⟩

/-- Settles O6: an operand that does not fit stops its line, and a name that is no mnemonic is looked up in vain. -/
theorem assemblerRejectsWhatDoesNotFit : Obligations.AssemblerRejectsWhatDoesNotFit := by
  refine ⟨fun p w m b v => ?_, fun p w m b => ?_, fun name hname p => ?_, fun name hname p v => ?_, fun i v => ⟨?_, ?_⟩,
    fun ch => ?_, fun _ _ h => instrOfLine_of_unknown h⟩
  · rw [instrOfLine_pack]
    split_ifs with h
    · obtain ⟨hp, hw, hw', hm, hb, hv⟩ := h
      exact asmPack_of_fits hp hw hw' hm hb hv
    · exact asmPack_eq_none.2 (by omega)
  · rw [instrOfLine_unpack, asmUnpack_eq_none, or_assoc]
  · simp only [List.mem_cons, List.not_mem_nil, or_false] at hname
    rcases hname with rfl | rfl | rfl | rfl | rfl
    · rw [instrOfLine_gpioSet, Option.map_eq_none_iff, asPin_eq_none]
    · rw [instrOfLine_gpioClr, Option.map_eq_none_iff, asPin_eq_none]
    · rw [instrOfLine_gpioAlt3, Option.map_eq_none_iff, asPin_eq_none]
    · rw [instrOfLine_gpioAlt5, Option.map_eq_none_iff, asPin_eq_none]
    · rw [instrOfLine_gpioPullNone, Option.map_eq_none_iff, asPin_eq_none]
  · simp only [List.mem_cons, List.not_mem_nil, or_false] at hname
    rcases hname with rfl | rfl
    · rw [instrOfLine_gpioPull, bind_eq_none_iff_of_isSome fun _ => Option.map_eq_none_iff, asPin_eq_none, asWord_eq_none]
    · rw [instrOfLine_gpioFsel, bind_eq_none_iff_of_isSome fun _ => Option.map_eq_none_iff, asPin_eq_none, asWord_eq_none]
  · rw [instrOfLine_bufWr, bind_eq_none_iff_of_isSome fun _ => Option.map_eq_none_iff, asWord_eq_none, asWord_eq_none]
  · rw [instrOfLine_bufRd, Option.map_eq_none_iff, asWord_eq_none]
  · rw [instrOfLine_mboxCall, asChannel]
    split_ifs <;> simp_all

end Sys2Proof.Machine
end

section
/-! PROOFS: what an Issue step and a step of the machine leave alone (R8, R13, R70, R96), and which configurations have a
run (R67). An Issue step is said once: the operand latches it loads, then one issue part. -/

namespace Sys2Proof.Machine

open Sys2Proof.Claims

/-! ## The Issue step (R96) -/

/-- The latches a command's issue part starts from: its own operands, and for a single GPIO command those of R140's
table. -/
def operandLatches (i : Instr) (s : State) : Latches :=
  match i with
  | .pack pin w maxp base value =>
    { s.lat with op := opPack, ch := 0, pin := pin, w := w, maxp := maxp, base := base, idx := base, val := value }
  | .unpack pin w maxp base =>
    { s.lat with op := opUnpack, ch := 0, pin := pin, w := w, maxp := maxp, base := base, idx := base }
  | .gpioSet pin =>
    { s.lat with op := opGpioSet, ch := 0, pin := pin, w := setClrWidth, maxp := gpioMaxPin, base := s.cfg.gpsetBase,
                 val := 1 }
  | .gpioClr pin =>
    { s.lat with op := opGpioClr, ch := 0, pin := pin, w := setClrWidth, maxp := gpioMaxPin, base := s.cfg.gpclrBase,
                 val := 1 }
  | .gpioPull pin state =>
    { s.lat with op := opGpioPull, ch := 0, pin := pin, w := pullWidth, maxp := gpioMaxPin, base := s.cfg.gppullBase,
                 val := state }
  | .gpioFsel pin function =>
    { s.lat with op := opGpioFsel, ch := 0, pin := pin, w := fselWidth, maxp := gpioMaxPin, base := s.cfg.gpfselBase,
                 val := function }
  | .gpioAlt3 pin => { s.lat with op := opGpioAlt3, ch := 0, pin := pin, w := 0, maxp := 0 }
  | .gpioAlt5 pin => { s.lat with op := opGpioAlt5, ch := 0, pin := pin, w := 0, maxp := 0 }
  | .bufWr index value =>
    { s.lat with op := opBufWr, ch := 0, pin := 0, w := 0, maxp := 0, base := index, idx := index, val := value }
  | .bufRd index => { s.lat with op := opBufRd, ch := 0, pin := 0, w := 0, maxp := 0, base := index, idx := index }
  | .bufAddr => { s.lat with op := opBufAddr, ch := 0, pin := 0, w := 0, maxp := 0 }
  | .mboxCallFb => { s.lat with op := opMboxCall, ch := chFramebuffer, pin := 0, w := 0, maxp := 0 }
  | .mboxCallProp => { s.lat with op := opMboxCall, ch := chProperty, pin := 0, w := 0, maxp := 0 }

/-- The issue part a command performs on its operand latches. -/
def issuePart (i : Instr) (s : State) : State :=
  match i with
  | .pack _ _ _ _ _ => packIssue s
  | .unpack _ _ _ _ => unpackIssue s
  | .gpioSet _ => packIssue s
  | .gpioClr _ => packIssue s
  | .gpioPull _ _ => packIssue s
  | .gpioFsel _ _ => packIssue s
  | .gpioAlt3 _ => compositeIssue s
  | .gpioAlt5 _ => compositeIssue s
  | .bufWr _ _ => bufferIssue s
  | .bufRd _ => bufferIssue s
  | .bufAddr => complete .ok s.cfg.bufAddr 0 s
  | .mboxCallFb => mboxIssue s
  | .mboxCallProp => mboxIssue s

/-- The Issue step of a well-formed command. -/
theorem exec_of_wellFormed {i : Instr} (h : i.wellFormed = true) (s : State) :
    exec i s = .next (issuePart i (setLat (operandLatches i s) s)) := by
  cases i with
  | pack pin w maxp base value => exact if_pos h
  | unpack pin w maxp base => exact if_pos h
  | _ => rfl

/-- Every Issue step answers a next state, that of a command with an illegal width too (log 14). -/
theorem exec_next (i : Instr) (s : State) : ∃ t, exec i s = .next t := by
  cases i with
  | pack pin w maxp base value => exact ⟨_, (apply_ite Host.Outcome.next _ _ _).symm⟩
  | unpack pin w maxp base => exact ⟨_, (apply_ite Host.Outcome.next _ _ _).symm⟩
  | _ => exact ⟨_, rfl⟩

/-- Settles O9: an Issue step answers a next state, which keeps every other field. -/
theorem issueMakesNoAccess : Obligations.IssueMakesNoAccess := fun i s => by
  obtain ⟨t, h⟩ := exec_next i s
  obtain ⟨hcfg, hmem, hanswers, hinbox, hport, hturns, hdraws, hevents⟩ := exec_keeps h
  exact ⟨t.phase, t.resCode, t.resData, t.resInfo, t.lat,
    h.trans (congrArg _ (State.ext hcfg rfl rfl rfl rfl rfl hmem hanswers hinbox hport hturns hdraws hevents))⟩

/-- The accepting step of a legal command latches the operand words and performs the issue part. -/
theorem issue_of_legal {c : Command} {i : Instr} (h : decodeCommand c = .legal i) (s : State) :
    issue c s = exec i (latchOpb c.opb (latchOpa c.opa s)) := by
  rw [issue, h]

/-! ### The operands stay in the latches -/

/-- The latches of CMD and OPA that no issue part changes. -/
structure KeepsCommand (l l' : Latches) : Prop where
  op : l'.op = l.op
  ch : l'.ch = l.ch
  pin : l'.pin = l.pin
  idx : l'.idx = l.idx

/-- All operand latches: only the issue part of a composite command changes one, by loading its stage 0. -/
structure KeepsOperands (l l' : Latches) : Prop extends KeepsCommand l l' where
  w : l'.w = l.w
  maxp : l'.maxp = l.maxp
  base : l'.base = l.base
  val : l'.val = l.val

theorem KeepsOperands.refl (l : Latches) : KeepsOperands l l := ⟨⟨rfl, rfl, rfl, rfl⟩, rfl, rfl, rfl, rfl⟩

section
variable (s : State)

theorem startAccess_keepsOperands : KeepsOperands s.lat (startAccess s).lat := ⟨⟨rfl, rfl, rfl, rfl⟩, rfl, rfl, rfl, rfl⟩

theorem packIssue_keepsOperands : KeepsOperands s.lat (packIssue s).lat := by
  rcases packIssue_cases s with ⟨_, e⟩ | ⟨_, e⟩ <;> rw [e]
  · exact .refl _
  · exact startAccess_keepsOperands s

theorem unpackIssue_keepsOperands : KeepsOperands s.lat (unpackIssue s).lat := by
  rcases unpackIssue_cases s with ⟨_, e⟩ | ⟨_, e⟩ <;> rw [e]
  · exact .refl _
  · exact startAccess_keepsOperands s

theorem bufferIssue_keepsOperands : KeepsOperands s.lat (bufferIssue s).lat := by
  rcases bufferIssue_cases s with ⟨_, e⟩ | ⟨_, e⟩ <;> rw [e] <;> exact .refl _

theorem mboxIssue_keepsOperands : KeepsOperands s.lat (mboxIssue s).lat := ⟨⟨rfl, rfl, rfl, rfl⟩, rfl, rfl, rfl, rfl⟩

theorem compositeIssue_keepsCommand : KeepsCommand s.lat (compositeIssue s).lat := by
  rcases compositeIssue_cases s with ⟨_, e⟩ | ⟨_, e⟩ <;> rw [e] <;> exact ⟨rfl, rfl, rfl, rfl⟩

end

/-- The latches hold what the words of `c` say (R96). -/
structure LatchesWords (c : Command) (l : Latches) : Prop where
  op : l.op = opOf c.cmd
  ch : l.ch = chOf c.cmd
  pin : l.pin = pinOf c.cmd
  idx : l.idx = c.opa
  packer : l.op = opPack ∨ l.op = opUnpack →
    l.w = widthOf c.cmd ∧ l.maxp = maxpOf c.cmd ∧ l.base = c.opa ∧ l.val = c.opb
  bufWr : l.op = opBufWr → l.val = c.opb

section
variable {c : Command} {l l' : Latches}

theorem LatchesWords.of_keepsOperands (h : LatchesWords c l) (k : KeepsOperands l l') : LatchesWords c l' where
  op := k.op.trans h.op
  ch := k.ch.trans h.ch
  pin := k.pin.trans h.pin
  idx := k.idx.trans h.idx
  packer hop := by
    rw [k.w, k.maxp, k.base, k.val]
    exact h.packer (k.op ▸ hop)
  bufWr hop := k.val.trans (h.bufWr (k.op ▸ hop))

/-- A composite command needs its operand latches but for the pin no more. -/
theorem LatchesWords.of_keepsCommand (h : LatchesWords c l) (k : KeepsCommand l l')
    (hop : l.op = opGpioAlt3 ∨ l.op = opGpioAlt5) : LatchesWords c l' where
  op := k.op.trans h.op
  ch := k.ch.trans h.ch
  pin := k.pin.trans h.pin
  idx := k.idx.trans h.idx
  packer hp := by rw [k.op] at hp; rcases hop with e | e <;> rw [e] at hp <;> exact absurd hp (by decide)
  bufWr hb := by rw [k.op] at hb; rcases hop with e | e <;> rw [e] at hb <;> exact absurd hb (by decide)

/-- Latches loaded from the fields of CMD. -/
theorem latchesWords_of_fields {op : BitVec 4} {w : BitVec 6} {maxp : BitVec 8}
    (hcmd : cmdWord op l.ch l.pin w maxp = c.cmd) (hop : l.op = op) (hidx : l.idx = c.opa)
    (hpacker : op = opPack ∨ op = opUnpack → l.w = w ∧ l.maxp = maxp ∧ l.base = c.opa ∧ l.val = c.opb)
    (hbufWr : op = opBufWr → l.val = c.opb) : LatchesWords c l where
  op := by rw [hop, ← hcmd, opOf_cmdWord]
  ch := by rw [← hcmd, chOf_cmdWord]
  pin := by rw [← hcmd, pinOf_cmdWord]
  idx := hidx
  packer := by rwa [hop, ← hcmd, widthOf_cmdWord, maxpOf_cmdWord]
  bufWr := by rwa [hop]

/-- The operand latches of the command that words `c` decode to, once OPA and OPB are latched. -/
theorem operandLatches_words {i : Instr} (h : WordsOf i c.cmd c.opa c.opb) (s : State) :
    LatchesWords c (operandLatches i (latchOpb c.opb (latchOpa c.opa s))) := by
  obtain ⟨hcmd, -, hopa, hopb⟩ := h
  cases i with
  | pack pin w maxp base value => exact latchesWords_of_fields hcmd rfl hopa (fun _ => ⟨rfl, rfl, hopa, hopb⟩) fun _ => hopb
  | unpack pin w maxp base => exact latchesWords_of_fields hcmd rfl hopa (fun _ => ⟨rfl, rfl, hopa, rfl⟩) fun _ => rfl
  | bufWr index value => exact latchesWords_of_fields hcmd rfl hopa (fun hop => absurd hop (by decide)) fun _ => hopb
  | bufRd index => exact latchesWords_of_fields hcmd rfl hopa (fun hop => absurd hop (by decide)) fun _ => rfl
  | _ => exact latchesWords_of_fields hcmd rfl rfl (fun hop => absurd hop (by decide)) fun hop => absurd hop (by decide)

end

/-- After the accepting step of a legal command. -/
theorem issuePart_words {i : Instr} {c : Command} {s : State} (h : LatchesWords c (operandLatches i s)) :
    LatchesWords c (issuePart i (setLat (operandLatches i s) s)).lat := by
  cases i with
  | unpack pin w maxp base => exact h.of_keepsOperands (unpackIssue_keepsOperands (setLat _ s))
  | gpioAlt3 pin => exact h.of_keepsCommand (compositeIssue_keepsCommand (setLat _ s)) (.inl rfl)
  | gpioAlt5 pin => exact h.of_keepsCommand (compositeIssue_keepsCommand (setLat _ s)) (.inr rfl)
  | bufWr index value => exact h.of_keepsOperands (bufferIssue_keepsOperands (setLat _ s))
  | bufRd index => exact h.of_keepsOperands (bufferIssue_keepsOperands (setLat _ s))
  | bufAddr => exact h
  | mboxCallFb => exact h.of_keepsOperands (mboxIssue_keepsOperands (setLat _ s))
  | mboxCallProp => exact h.of_keepsOperands (mboxIssue_keepsOperands (setLat _ s))
  | _ => exact h.of_keepsOperands (packIssue_keepsOperands (setLat _ s))

/-- Settles O10: the operand latches are loaded from the words, and no issue part changes what the statement names. -/
theorem issueLatchesTheOperands : Obligations.IssueLatchesTheOperands := fun c s i h => by
  have words := wordsOf_of_decode h
  obtain ⟨op, ch, pin, idx, packer, bufWr⟩ := issuePart_words (operandLatches_words words s)
  exact ⟨_, (issue_of_legal h s).trans (exec_of_wellFormed words.wellFormed _), op, ch, pin, idx, packer, bufWr⟩

/-! ## Steps (R8, R13, R70, R96) -/

/-- MBOX_HW's move leaves the configuration alone. -/
theorem gpuWriteBuffer_cfg (i : Nat) (v : Word) (s : State) : (gpuWriteBuffer i v s).cfg = s.cfg := by
  unfold gpuWriteBuffer
  split
  · exact memWrite_cfg ..
  · rfl

theorem step_cfg {s t : State} (h : step s = .next t) : t.cfg = s.cfg := by
  cases (step_shape h).2 with
  | illegal _ _ _ _ _ result => subst result; rfl
  | issue _ _ _ _ _ _ _ result => exact (exec_keeps result).1
  | ctrl _ result => exact (ctrlStep_keeps result).1
  | answer _ _ _ _ result => subst result; rfl
  | absorb _ _ result => subst result; rfl
  | gpuWrite i v _ _ result => subst result; exact gpuWriteBuffer_cfg i v _
  | reset _ _ result => subst result; rfl

/-- Settles O13: no operation writes the configuration. -/
theorem configurationNeverChanges : Obligations.ConfigurationNeverChanges := fun _ _ h => step_cfg h

/-- Settles O11: outside IDLE only the controller and the environment move, and neither takes a command. -/
theorem issueWaitsUntilIdle : Obligations.IssueWaitsUntilIdle := fun s t hp h => by
  cases (step_shape h).2 with
  | illegal _ _ idle _ _ _ => exact absurd idle hp
  | issue _ _ _ idle _ _ _ _ => exact absurd idle hp
  | ctrl _ result => exact (ctrlStep_keeps result).2.1
  | answer _ _ _ _ result => subst result; rfl
  | absorb _ _ result => subst result; rfl
  | gpuWrite i v ts _ result => subst result; exact (gpuWriteBuffer_port_turns i v { s with turns := ts }).1
  | reset _ _ result => subst result; rfl

/-- A controller step records no event or one of its own. -/
theorem CtrlAccess.events_cases {s t : State} (h : CtrlAccess s t) :
    t.events = s.events ∨ ∃ e, t.events = e :: s.events ∧ e.performer = .ctrl := by
  cases h with
  | none events _ _ => exact .inl events
  | read sp a events _ _ _ => exact .inr ⟨_, events, rfl⟩
  | write sp a v events _ _ _ => exact .inr ⟨_, events, rfl⟩

/-- Settles O12: of the shapes of a step only the controller's and MBOX_HW's record an event, and one each. -/
theorem oneAccessPerStep : Obligations.OneAccessPerStep := fun s t h => by
  cases (step_shape h).2 with
  | illegal _ _ _ _ _ result => subst result; exact .inl rfl
  | issue _ _ _ _ _ _ _ result =>
    obtain ⟨-, -, -, -, -, -, -, events⟩ := exec_keeps result
    exact .inl events
  | ctrl turn result =>
    exact (ctrlStep_access result).events_cases.imp_right fun ⟨e, events, ctrl⟩ => ⟨e, events, .inl ⟨ctrl, turn⟩⟩
  | answer _ _ _ _ result => subst result; exact .inl rfl
  | absorb _ _ result => subst result; exact .inl rfl
  | gpuWrite i v ts turn result =>
    subst result
    by_cases enabled : callInFlight { s with turns := ts } = true ∧ i < s.cfg.bufWords
    · rw [gpuWriteBuffer_of_enabled v enabled.1 enabled.2]
      exact .inr ⟨_, memWrite_events .., .inr ⟨rfl, rfl, i, v, ts, turn⟩⟩
    · rw [gpuWriteBuffer_of_disabled v enabled]
      exact .inl rfl
  | reset _ _ result => subst result; exact .inl rfl

/-! ## The turn of a step (R13, R14) -/

section
variable {s : State} {ts : List Turn}

theorem step_of_blockTurn (hc : configWellFormed s.cfg = true)
    (ht : s.turns = .block :: ts ∨ (s.turns = [] ∧ ts = [])) : step s = blockTurn { s with turns := ts } := by
  rw [step, if_pos hc, nextTurn]
  rcases ht with ht | ⟨ht, rfl⟩ <;> rw [ht]
  · rfl
  · exact congrArg blockTurn (congrArg (fun l => { s with turns := l }) ht)

theorem step_of_turn (hc : configWellFormed s.cfg = true) {t : Turn} (ht : s.turns = t :: ts) :
    step s = takeTurn t { s with turns := ts } := by
  rw [step, if_pos hc, nextTurn, ht]

theorem blockTurn_of_busy (hp : s.phase ≠ .idle) : blockTurn s = ctrlStep s := by
  rcases blockTurn_cases s with ⟨c, cs, idle, _⟩ | ⟨_, e⟩
  · exact absurd idle hp
  · exact e

end

theorem pendingAnswer_append {l r : List (Nat × Word)} {a : Nat} {v : Word} (h : ∀ x ∈ l, x.1 ≠ a) :
    pendingAnswer (l ++ (a, v) :: r) a = some v ∧ dropAnswer (l ++ (a, v) :: r) a = l ++ r := by
  induction l with
  | nil => simp [pendingAnswer, dropAnswer]
  | cons x l ih =>
    obtain ⟨hx, hl⟩ := List.forall_mem_cons.1 h
    obtain ⟨hpending, hdrop⟩ := ih hl
    simp [pendingAnswer, dropAnswer, Ne.symm hx, hpending, hdrop]

/-- Settles O7: the turn chosen decides the step, and a read takes the oldest answer for its address. -/
theorem stepRunsTheDecodedCommand : Obligations.StepRunsTheDecodedCommand := by
  refine ⟨fun s ts hc ht => ⟨fun c cs i hp hq hi => ?_, fun hp => ?_⟩, fun s ts hc => ⟨fun a v ht => ?_, fun ht => ?_⟩,
    fun who sp a v l r s hm ha hl => ?_⟩
  · rw [step_of_blockTurn hc ht, blockTurn_of_waiting (s := { s with turns := ts }) hp hq, issue_of_legal hi]
    rfl
  · rw [step_of_blockTurn hc ht, blockTurn_of_busy (s := { s with turns := ts }) hp]
  · exact step_of_turn hc ht
  · rw [step_of_turn hc ht, List.drop_one]
    rfl
  · obtain ⟨hpending, hdrop⟩ := pendingAnswer_append (v := v) (r := r) hl
    rw [← ha] at hpending hdrop
    refine ⟨(readValue_of_unstored hm).trans (drawAt_of_pending hpending), ?_⟩
    rw [afterRead_of_pending hm hpending, hdrop]
    rfl

/-- Settles O8: the placed command is the oldest one waiting, and the turn is the block's. -/
theorem placedWordRunsNext : Obligations.PlacedWordRunsNext := fun s nbits w i hc hw => by
  have hi : decodeCommand (tableCommand nbits w) = .legal i := by
    unfold decodeTableWord at hw
    split at hw
    · cases hw; assumption
    · cases hw
  rw [step_of_blockTurn (s := s.withFetchWord nbits w) (ts := s.turns) hc (.inl rfl), blockTurn_of_waiting rfl rfl,
    issue_of_legal hi]
  rfl

/-- Settles O57: reset is one operation, and State.reset holds its values. -/
theorem resetTouchesOnlyTheBlock : Obligations.ResetTouchesOnlyTheBlock :=
  ⟨⟨rfl, rfl, rfl, rfl, by decide⟩, fun _ _ hc ht => ⟨_, _, step_of_turn hc ht⟩⟩

/-! ## Which configurations have a run (R67) -/

theorem alignedInWindow_iff {c : Config} {a : Nat} : alignedInWindow c a = true ↔
    a % 4 = 0 ∧ c.peripheralBase.toNat ≤ a ∧ a ≤ c.peripheralEnd.toNat := by
  simp [alignedInWindow, inWindow]

/-- A bank by the condition R67 lists, and its start by log 12. -/
theorem bankWellFormed_iff {c : Config} {b : Word} {last : Nat} : bankWellFormed c b last = true ↔
    (b.toNat % 4 = 0 ∧ c.peripheralBase.toNat ≤ b.toNat + last ∧ b.toNat + last ≤ c.peripheralEnd.toNat) ∧
      c.peripheralBase.toNat ≤ b.toNat ∧ b.toNat ≤ c.peripheralEnd.toNat := by
  rw [bankWellFormed, Bool.and_eq_true, alignedInWindow_iff, inWindow_iff]
  omega

theorem configWellFormed_iff (c : Config) : configWellFormed c = true ↔ ConfigConditions c ∧ BanksStartInWindow c := by
  have hend : c.peripheralEnd.toNat < 2 ^ 32 := c.peripheralEnd.isLt
  simp only [configWellFormed, Bool.and_eq_true, bankWellFormed_iff, alignedInWindow_iff, ConfigConditions,
    BanksStartInWindow, List.forall_mem_cons, List.not_mem_nil, false_imp_iff, implies_true, and_true,
    decide_eq_true_eq, beq_iff_eq, bne_iff_ne, hend, true_and]
  tauto

/-- A turn answers a next state or, the block's in FAULTED, a fault. -/
theorem ctrlStep_ne_refused (s : State) (r : Refusal) : ctrlStep s ≠ .refused r := by
  unfold ctrlStep
  cases s.phase <;> exact nofun

theorem issue_next (c : Command) (s : State) : ∃ t, issue c s = .next t := by
  unfold issue
  split
  · exact exec_next _ _
  · exact ⟨_, rfl⟩

theorem nextTurn_ne_refused (s : State) (r : Refusal) : nextTurn s ≠ .refused r := by
  rcases nextTurn_cases s with ⟨_, e⟩ | ⟨t, ts, _, notBlock, e⟩ <;> rw [e]
  · rcases blockTurn_cases { s with turns := s.turns.tail } with ⟨c, cs, _, _, e⟩ | ⟨_, e⟩ <;> rw [e]
    · obtain ⟨t, ht⟩ := issue_next c { s with turns := s.turns.tail, port := cs }
      rw [ht]
      exact nofun
    · exact ctrlStep_ne_refused _ r
  · cases t with
    | block => exact absurd rfl notBlock
    | _ => exact nofun

/-- Settles O14: the check is the list of conditions, and no turn is refused. -/
theorem illFormedConfigurationHasNoRun : Obligations.IllFormedConfigurationHasNoRun := by
  refine ⟨configWellFormed_iff, fun s => ?_⟩
  rw [← configWellFormed_iff]
  rcases step_cases s with ⟨hc, e⟩ | ⟨hc, e⟩ <;> rw [e, hc]
  · exact ⟨fun _ => Bool.false_ne_true, fun _ => rfl⟩
  · exact ⟨fun h => absurd h (nextTurn_ne_refused s _), fun h => absurd rfl h⟩

/-! ## Two pins of a bank (R27, R120) -/

/-- A slot below another ends before the other begins. -/
theorem slot_le {x y w : Nat} (h : x < y) : x * w + w ≤ y * w := by
  rw [← Nat.succ_mul]
  exact Nat.mul_le_mul_right w h

/-- Settles O18: two pins in one register have different slots in it. -/
theorem fieldsOfTwoPinsAreApart : Obligations.FieldsOfTwoPinsAreApart := fun p q w base _ _ hne => by
  by_cases same : regIndex p w = regIndex q w
  · have slots : p % fieldsPerReg w ≠ q % fieldsPerReg w := fun e =>
      hne (Nat.ext_div_mod same e)
    rcases Nat.lt_or_gt_of_ne slots with below | above
    · exact .inr (.inl (slot_le below))
    · exact .inr (.inr (slot_le above))
  · refine .inl fun e => same ?_
    unfold fieldAddr at e
    omega

end Sys2Proof.Machine
end

section
/-! PROOFS: the machine's invariant. What each phase asks of the latches is named once; an operation that ends in a phase
needs to establish that phase's part only. Every issue part and every controller step then keeps the invariant, and with it
each step of the machine. -/

namespace Sys2Proof.Machine

/-! ## The invariant by phase -/

/-- What the invariant asks of the latches in a phase. -/
def PhaseOk (s : State) : Phase → Prop
  | .idle => True
  | .fpRead => FieldLatchesOk s
  | .fpWrite => FieldLatchesOk s ∧ PendingWriteOk s
  | .bufAccess => (s.lat.op = opBufWr ∨ s.lat.op = opBufRd) ∧ s.lat.idx.toNat < s.cfg.bufWords
  | .mbWaitWritable => CallLatchesOk s
  | .mbPublish => CallLatchesOk s
  | .mbWaitReadable => CallLatchesOk s
  | .mbCheckEcho => CallLatchesOk s
  | .mbCheckResponse => CallLatchesOk s ∧ s.lat.echo = s.lat.db
  | .faulted => True

/-- The invariant: canonical memory, a fatal code exactly in FAULTED, and the phase's part. -/
theorem inv_iff {s : State} :
    Inv s ↔ s.mem.wf = true ∧ (s.resCode.isFatal = true ↔ s.phase = .faulted) ∧ PhaseOk s s.phase := by
  constructor
  · rintro ⟨memory, record, field, write, buffer, call, echo⟩
    refine ⟨memory, record, ?_⟩
    cases hp : s.phase <;> simp_all [PhaseOk, mailboxPhase]
  · rintro ⟨memory, record, ok⟩
    cases hp : s.phase <;> constructor <;> simp_all [PhaseOk, mailboxPhase]

/-- A phase's part speaks of the configuration and the latches only. -/
theorem phaseOk_congr {s t : State} {p : Phase} (hcfg : t.cfg = s.cfg) (hlat : t.lat = s.lat) (h : PhaseOk s p) :
    PhaseOk t p := by
  cases s
  cases t
  cases hcfg
  cases hlat
  cases p with
  | fpRead => exact { (h : FieldLatchesOk _) with }
  | fpWrite => exact ⟨{ h.1 with }, { h.2 with }⟩
  | mbWaitWritable | mbPublish | mbWaitReadable | mbCheckEcho => exact { (h : CallLatchesOk _) with }
  | mbCheckResponse => exact ⟨{ h.1 with }, h.2⟩
  | idle | bufAccess | faulted => exact h

/-- Canonical memory, and no fatal code recorded. -/
structure Quiet (s : State) : Prop where
  memory : s.mem.wf = true
  code : s.resCode.isFatal = false

section
variable {s t : State}

theorem Inv.quiet (h : Inv s) (hp : s.phase ≠ .faulted) : Quiet s :=
  ⟨h.memory, Bool.eq_false_iff.2 fun hf => hp (h.record.1 hf)⟩

/-- Where no fatal code is recorded and the phase is not FAULTED, the phase's part is the invariant. -/
theorem Quiet.inv (h : Quiet s) (hp : s.phase ≠ .faulted) (ok : PhaseOk s s.phase) : Inv s :=
  inv_iff.2 ⟨h.memory, ⟨fun hf => absurd hf (by rw [h.code]; decide), fun hf => absurd hf hp⟩, ok⟩

theorem inv_complete {code : ResCode} {data info : Word} (hm : s.mem.wf = true) (hcode : code.isFatal = false) :
    Inv (complete code data info s) := Quiet.inv ⟨hm, hcode⟩ nofun trivial

theorem inv_raiseFatal {code : ResCode} {info : Word} (hm : s.mem.wf = true) (hcode : code.isFatal = true) :
    Inv (raiseFatal code info s) := inv_iff.2 ⟨hm, ⟨fun _ => rfl, fun _ => hcode⟩, trivial⟩

/-- A move that keeps the phase, the code, the configuration and the latches keeps the invariant with memory. -/
theorem Inv.of_same (h : Inv s) (hcfg : t.cfg = s.cfg) (hp : t.phase = s.phase) (hcode : t.resCode = s.resCode)
    (hlat : t.lat = s.lat) (hm : t.mem.wf = true) : Inv t := by
  obtain ⟨-, record, ok⟩ := inv_iff.1 h
  exact inv_iff.2 ⟨hm, by rwa [hcode, hp], hp ▸ phaseOk_congr hcfg hlat ok⟩

/-! ## The Issue step -/

/-- What the field packer's latches must hold before the range check. -/
structure OperandsOk (s : State) : Prop where
  opcode : 1 ≤ s.lat.op.toNat ∧ s.lat.op.toNat ≤ 8
  width : widthLegal s.lat.w = true
  gpioMax : 3 ≤ s.lat.op.toNat → s.lat.maxp = gpioMaxPin
  bank : 3 ≤ s.lat.op.toNat → (s.lat.base, s.lat.w) = runningBank s

theorem fieldMask_toNat {w : BitVec 6} (hw : widthLegal w = true) :
    (BitVec.ofNat 32 (fieldMask w.toNat)).toNat = fieldMask w.toNat := by
  have hle : 2 ^ w.toNat ≤ 2 ^ 32 := Nat.pow_le_pow_right (by decide) (widthLegal_iff.1 hw).2
  have hpos : 0 < 2 ^ w.toNat := Nat.two_pow_pos _
  rw [BitVec.toNat_ofNat, fieldMask, Nat.mod_eq_of_lt (by omega)]

/-- On operands that pass the range check the geometry latches come to agree with them (R120). -/
theorem fieldLatchesOk_startAccess (h : OperandsOk s) (hpin : s.lat.pin.toNat ≤ s.lat.maxp.toNat)
    (hval : s.lat.op ≠ opUnpack → s.lat.val.toNat ≤ fieldMask s.lat.w.toNat) : FieldLatchesOk (startAccess s) where
  opcode := h.opcode
  width := h.width
  pin := hpin
  gpioMax := h.gpioMax
  value := hval
  address := addr_toNat s.lat.pin s.lat.w.toNat s.lat.base
  offset := by
    obtain ⟨h1, h2⟩ := widthLegal_iff.1 h.width
    exact shift_toNat s.lat.pin.toNat s.lat.w.toNat h1 h2
  mask := fieldMask_toNat h.width
  bank := h.bank

theorem operandsOk_of_packer (hop : s.lat.op = opPack ∨ s.lat.op = opUnpack) (hw : widthLegal s.lat.w = true) :
    OperandsOk s where
  opcode := by rcases hop with h | h <;> rw [h] <;> decide
  width := hw
  gpioMax hgpio := by rcases hop with h | h <;> rw [h] at hgpio <;> exact absurd hgpio (by decide)
  bank hgpio := by rcases hop with h | h <;> rw [h] at hgpio <;> exact absurd hgpio (by decide)

theorem operandsOk_of_gpio {op : BitVec 4} (hop : s.lat.op = op) (hrange : 1 ≤ op.toNat ∧ op.toNat ≤ 8)
    (hw : widthLegal s.lat.w = true) (hmaxp : s.lat.maxp = gpioMaxPin) (hbank : (s.lat.base, s.lat.w) = runningBank s) :
    OperandsOk s where
  opcode := hop ▸ hrange
  width := hw
  gpioMax _ := hmaxp
  bank _ := hbank

theorem packIssue_inv (hq : Quiet s) (h : OperandsOk s) : Inv (packIssue s) := by
  rcases packIssue_cases s with ⟨_, e⟩ | ⟨ok, e⟩ <;> rw [e]
  · exact inv_complete hq.memory rfl
  · obtain ⟨hpin, hval⟩ := rangeCheck_eq_zero.1 ok
    exact Quiet.inv ⟨hq.memory, hq.code⟩ nofun (fieldLatchesOk_startAccess h hpin fun _ => hval)

theorem unpackIssue_inv (hq : Quiet s) (h : OperandsOk s) (hop : s.lat.op = opUnpack) : Inv (unpackIssue s) := by
  rcases unpackIssue_cases s with ⟨_, e⟩ | ⟨ok, e⟩ <;> rw [e]
  · exact inv_complete hq.memory rfl
  · exact Quiet.inv ⟨hq.memory, hq.code⟩ nofun (fieldLatchesOk_startAccess h (pinBad_eq_false.1 ok) fun hne => absurd hop hne)

/-- A sub-operation of a composite command uses the bank of its stage (R145). -/
theorem operandsOk_of_stage {base : Word} {w : BitVec 6} {v : Word} {stage : BitVec 1}
    (hop : s.lat.op = opGpioAlt3 ∨ s.lat.op = opGpioAlt5) (hw : widthLegal w = true)
    (hbank : (base, w) = if stage = 0 then (s.cfg.gppullBase, pullWidth) else (s.cfg.gpfselBase, fselWidth)) :
    OperandsOk (loadGpio base w v (latchStage stage s)) where
  opcode := by rcases hop with h | h <;> simp +decide [h]
  width := hw
  gpioMax _ := rfl
  bank _ := by rcases hop with h | h <;> simpa +decide [runningBank, h] using hbank

theorem compositeIssue_inv (hq : Quiet s) (hop : s.lat.op = opGpioAlt3 ∨ s.lat.op = opGpioAlt5) :
    Inv (compositeIssue s) := by
  rcases compositeIssue_cases s with ⟨_, e⟩ | ⟨ok, e⟩ <;> rw [e]
  · exact inv_raiseFatal hq.memory rfl
  · exact Quiet.inv ⟨hq.memory, hq.code⟩ nofun
      (fieldLatchesOk_startAccess (operandsOk_of_stage hop rfl rfl) (pinBad_eq_false.1 ok) fun _ => Nat.zero_le _)

theorem bufferIssue_inv (hq : Quiet s) (hop : s.lat.op = opBufWr ∨ s.lat.op = opBufRd) : Inv (bufferIssue s) := by
  rcases bufferIssue_cases s with ⟨_, e⟩ | ⟨ok, e⟩ <;> rw [e]
  · exact inv_raiseFatal hq.memory rfl
  · exact Quiet.inv ⟨hq.memory, hq.code⟩ nofun ⟨hop, ok⟩

theorem mboxIssue_inv (hq : Quiet s) (hop : s.lat.op = opMboxCall)
    (hch : s.lat.ch = chFramebuffer ∨ s.lat.ch = chProperty) : Inv (mboxIssue s) :=
  Quiet.inv ⟨hq.memory, hq.code⟩ nofun ⟨hop, hch, rfl⟩

/-- The Issue step of a well-formed command establishes the part of the phase it enters. -/
theorem issuePart_inv {i : Instr} (hw : i.wellFormed = true) (hq : Quiet s) :
    Inv (issuePart i (setLat (operandLatches i s) s)) := by
  have quiet (l : Latches) : Quiet (setLat l s) := ⟨hq.memory, hq.code⟩
  cases i with
  | pack pin w maxp base value => exact packIssue_inv (quiet _) (operandsOk_of_packer (.inl rfl) hw)
  | unpack pin w maxp base => exact unpackIssue_inv (quiet _) (operandsOk_of_packer (.inr rfl) hw) rfl
  | gpioSet pin => exact packIssue_inv (quiet _) (operandsOk_of_gpio (op := opGpioSet) rfl (by decide) rfl rfl rfl)
  | gpioClr pin => exact packIssue_inv (quiet _) (operandsOk_of_gpio (op := opGpioClr) rfl (by decide) rfl rfl rfl)
  | gpioPull pin state =>
    exact packIssue_inv (quiet _) (operandsOk_of_gpio (op := opGpioPull) rfl (by decide) rfl rfl rfl)
  | gpioFsel pin function =>
    exact packIssue_inv (quiet _) (operandsOk_of_gpio (op := opGpioFsel) rfl (by decide) rfl rfl rfl)
  | gpioAlt3 pin => exact compositeIssue_inv (quiet _) (.inl rfl)
  | gpioAlt5 pin => exact compositeIssue_inv (quiet _) (.inr rfl)
  | bufWr index value => exact bufferIssue_inv (quiet _) (.inl rfl)
  | bufRd index => exact bufferIssue_inv (quiet _) (.inr rfl)
  | bufAddr => exact inv_complete hq.memory rfl
  | mboxCallFb => exact mboxIssue_inv (quiet _) rfl (.inl rfl)
  | mboxCallProp => exact mboxIssue_inv (quiet _) rfl (.inr rfl)

/-! ## The controller's steps -/

/-- A write at an admitted register keeps memory canonical. -/
theorem memWrite_register_wf {a : Nat} {v : Word} (ha : mmioFault s.cfg a = none) (hm : s.mem.wf = true) :
    (memWrite .ctrl .register a v s).mem.wf = true := by
  obtain ⟨aligned, inside⟩ := mmioFault_eq_none.1 ha
  have := inWindow_lt inside
  exact memWrite_wf _ _ _ _ _ (by omega) hm

/-- So does a write of a buffer word in bounds, whoever makes it. -/
theorem memWrite_buffer_wf {who : Agent} {i : Nat} {v : Word} (hc : configWellFormed s.cfg = true)
    (hi : i < s.cfg.bufWords) (hm : s.mem.wf = true) :
    (memWrite who .buffer (bufWordAddr s.cfg i) v s).mem.wf = true := by
  obtain ⟨-, -, hend⟩ := configWellFormed_buffer hc
  exact memWrite_wf _ _ _ _ _ (by unfold bufWordAddr; omega) hm

/-- FP_READ leaves the merge, at a register it has admitted, to FP_WRITE. -/
theorem fpReadStep_inv (hinv : Inv s) (hp : s.phase = .fpRead) : Inv (fpReadStep s) := by
  have hf : FieldLatchesOk s := hinv.field (.inl hp)
  have hq : Quiet s := hinv.quiet (by rw [hp]; nofun)
  cases hm : mmioFault s.cfg s.lat.addr.toNat with
  | some code =>
    rw [fpReadStep_of_fault hm]
    exact inv_raiseFatal hq.memory (mmioFault_isFatal hm)
  | none =>
    by_cases hu : s.lat.op = opUnpack
    · rw [fpReadStep_of_unpack hm hu]
      exact inv_complete (by simpa using hq.memory) rfl
    · rw [fpReadStep_of_other hm hu]
      refine Quiet.inv ⟨by simpa using hq.memory, by simpa using hq.code⟩ nofun ⟨?_, hu, by simpa using hm, rfl⟩
      obtain ⟨opcode, width, pin, gpioMax, value, address, offset, mask, bank⟩ := hf
      exact ⟨opcode, width, pin, gpioMax, value, address, offset, mask, by simpa [runningBank] using bank⟩

/-- FP_WRITE under the invariant: its register is admitted, and it begins stage 1 or ends the command (R126, R145). -/
theorem fpWriteStep_cases (hinv : Inv s) (hc : configWellFormed s.cfg = true) (hp : s.phase = .fpWrite) :
    ((s.lat.op = opGpioAlt3 ∨ s.lat.op = opGpioAlt5) ∧ s.lat.stage = 0 ∧
      fpWriteStep s = startAccess (loadGpio s.cfg.gpfselBase fselWidth (compositeCode s)
        (latchStage 1 (memWrite .ctrl .register s.lat.addr.toNat s.lat.new s)))) ∨
    (¬ ((s.lat.op = opGpioAlt3 ∨ s.lat.op = opGpioAlt5) ∧ s.lat.stage = 0) ∧
      fpWriteStep s = complete .ok s.lat.new (trunc32 s.lat.addr.toNat)
        (memWrite .ctrl .register s.lat.addr.toNat s.lat.new s)) := by
  have hf : FieldLatchesOk s := hinv.field (.inr hp)
  have admitted : mmioFault s.cfg s.lat.addr.toNat = none := (hinv.write hp).admitted
  by_cases hstage : (s.lat.op = opGpioAlt3 ∨ s.lat.op = opGpioAlt5) ∧ s.lat.stage = 0
  · refine .inl ⟨hstage.1, hstage.2, ?_⟩
    have code : compositeCode (memWrite .ctrl .register s.lat.addr.toNat s.lat.new s) = compositeCode s := by
      simp [compositeCode]
    have ok := stage1_rangeCheck_eq_zero hc hf hstage.1
    rw [fpWriteStep_of_stage0 admitted hstage, beginStage1, code, memWrite_lat, if_neg (not_not.2 ok), memWrite_cfg]
  · exact .inr ⟨hstage, fpWriteStep_of_last admitted hstage⟩

theorem fpWriteStep_inv (hinv : Inv s) (hc : configWellFormed s.cfg = true) (hp : s.phase = .fpWrite) :
    Inv (fpWriteStep s) := by
  have hf : FieldLatchesOk s := hinv.field (.inr hp)
  have hq : Quiet s := hinv.quiet (by rw [hp]; nofun)
  have hm := memWrite_register_wf (v := s.lat.new) (hinv.write hp).admitted hq.memory
  rcases fpWriteStep_cases hinv hc hp with ⟨hop, -, e⟩ | ⟨-, e⟩ <;> rw [e]
  · obtain ⟨hpin, hval⟩ := rangeCheck_eq_zero.1 (stage1_rangeCheck_eq_zero hc hf hop)
    refine Quiet.inv ⟨hm, by simpa using hq.code⟩ nofun
      (fieldLatchesOk_startAccess (operandsOk_of_stage (by simpa using hop) rfl (by simp)) (by simpa using hpin)
        fun _ => hval)
  · exact inv_complete hm rfl

theorem bufAccessStep_inv (hinv : Inv s) (hc : configWellFormed s.cfg = true) (hp : s.phase = .bufAccess) :
    Inv (bufAccessStep s) := by
  by_cases hw : s.lat.op = opBufWr
  · rw [bufAccessStep_of_write hw]
    exact inv_complete (memWrite_buffer_wf hc (hinv.buffer hp).2 hinv.memory) rfl
  · rw [bufAccessStep_of_read hw]
    exact inv_complete (by simpa using hinv.memory) rfl

/-- A step of a call that goes on to another phase of it with `L.op`, `L.ch` and `L.db` as they were. -/
theorem callStep_inv (hinv : Inv s) (hs : mailboxPhase s.phase = true) (ht : mailboxPhase t.phase = true)
    (hcfg : t.cfg = s.cfg) (hcode : t.resCode = s.resCode)
    (hlat : t.lat.op = s.lat.op ∧ t.lat.ch = s.lat.ch ∧ t.lat.db = s.lat.db) (hm : t.mem.wf = true)
    (hecho : t.phase = .mbCheckResponse → t.lat.echo = t.lat.db) : Inv t := by
  obtain ⟨op, ch, db⟩ := hlat
  obtain ⟨opcode, channel, doorbell⟩ := hinv.call hs
  have call : CallLatchesOk t := ⟨op.trans opcode, ch ▸ channel, by rw [db, doorbell, hcfg, ch]⟩
  have hq : Quiet s := hinv.quiet fun h => by rw [h] at hs; cases hs
  refine Quiet.inv ⟨hm, hcode ▸ hq.code⟩ (fun h => by rw [h] at ht; cases ht) ?_
  cases hp : t.phase with
  | mbWaitWritable | mbPublish | mbWaitReadable | mbCheckEcho => exact call
  | mbCheckResponse => exact ⟨call, hecho hp⟩
  | idle | fpRead | fpWrite | bufAccess | faulted => rw [hp] at ht; cases ht

/-- Every controller step keeps the invariant. -/
theorem ctrlStep_inv (hinv : Inv s) (hc : configWellFormed s.cfg = true) (h : ctrlStep s = .next t) : Inv t := by
  cases hp : s.phase with
  | idle => rw [ctrlStep_of_idle hp] at h; cases h; exact hinv
  | fpRead => rw [ctrlStep_of_fpRead hp] at h; cases h; exact fpReadStep_inv hinv hp
  | fpWrite => rw [ctrlStep_of_fpWrite hp] at h; cases h; exact fpWriteStep_inv hinv hc hp
  | bufAccess => rw [ctrlStep_of_bufAccess hp] at h; cases h; exact bufAccessStep_inv hinv hc hp
  | mbWaitWritable =>
    rw [writePollSpinsWhileFull s hc hp] at h
    cases h
    exact callStep_inv hinv (by rw [hp]; rfl) (by dsimp only; split <;> rfl) rfl rfl ⟨rfl, rfl, rfl⟩ hinv.memory
      fun e => by dsimp only at e; split at e <;> cases e
  | mbPublish =>
    rw [ctrlStep_publishes hc hp] at h
    cases h
    have hm := memWrite_register_wf (v := s.lat.db) (configWellFormed_mailbox hc).2.2 hinv.memory
    exact callStep_inv hinv (by rw [hp]; rfl) rfl rfl rfl ⟨rfl, rfl, rfl⟩ hm nofun
  | mbWaitReadable =>
    rw [readPollSpinsWhileEmpty s hc hp] at h
    cases h
    exact callStep_inv hinv (by rw [hp]; rfl) (by dsimp only; split <;> rfl) rfl rfl ⟨rfl, rfl, rfl⟩ hinv.memory
      fun e => by dsimp only at e; split at e <;> cases e
  | mbCheckEcho =>
    rw [echoMatchComparesTheWholeWord s hc hp] at h
    cases h
    exact callStep_inv hinv (by rw [hp]; rfl) (by dsimp only; split <;> rfl) rfl rfl ⟨rfl, rfl, rfl⟩ hinv.memory
      fun e => by_contra fun hne => nomatch (if_neg hne).symm.trans e
  | mbCheckResponse =>
    rw [ctrlStep_of_checkResponse hp, checkResponseStep_eq] at h
    cases h
    refine inv_complete (by simpa using hinv.memory) ?_
    split <;> rfl
  | faulted => rw [ctrlStep_of_faulted hp] at h; cases h

/-! ## Every step -/

theorem gpuWriteBuffer_inv {i : Nat} {v : Word} (hinv : Inv s) (hc : configWellFormed s.cfg = true) :
    Inv (gpuWriteBuffer i v s) := by
  by_cases enabled : callInFlight s = true ∧ i < s.cfg.bufWords
  · rw [gpuWriteBuffer_of_enabled v enabled.1 enabled.2]
    exact hinv.of_same (memWrite_cfg ..) (memWrite_phase ..) (memWrite_resCode ..) (memWrite_lat ..)
      (memWrite_buffer_wf hc enabled.2 hinv.memory)
  · rwa [gpuWriteBuffer_of_disabled v enabled]

theorem step_inv (hinv : Inv s) (h : step s = .next t) : Inv t := by
  obtain ⟨hc, shape⟩ := step_shape h
  have queued (ts : List Turn) : Inv { s with turns := ts } :=
    hinv.of_same rfl rfl rfl rfl hinv.memory
  cases shape with
  | illegal c cs _ _ _ result => subst result; exact inv_complete hinv.memory rfl
  | issue c cs i idle _ _ decoded result =>
    have hw := (wordsOf_of_decode decoded).wellFormed
    rw [exec_of_wellFormed hw] at result
    cases result
    have hq := hinv.quiet (by rw [idle]; nofun)
    exact issuePart_inv hw ⟨hq.memory, hq.code⟩
  | ctrl _ result => exact ctrlStep_inv (queued s.turns.tail) hc result
  | answer a v ts _ result => subst result; exact hinv.of_same rfl rfl rfl rfl hinv.memory
  | absorb ts _ result => subst result; exact hinv.of_same rfl rfl rfl rfl hinv.memory
  | gpuWrite i v ts _ result => subst result; exact gpuWriteBuffer_inv (queued ts) hc
  | reset ts _ result => subst result; exact Quiet.inv ⟨hinv.memory, rfl⟩ nofun trivial

end

/-- Settles O60: every shape of a step establishes the part of the phase it leads to. -/
theorem everyStepKeepsTheInvariant : Obligations.EveryStepKeepsTheInvariant := fun _ _ hinv h => step_inv hinv h

/-- Settles O59: in IDLE with no result and empty memory nothing is asked. -/
theorem invariantAtReset : Obligations.InvariantAtReset := Quiet.inv ⟨rfl, rfl⟩ nofun trivial

end Sys2Proof.Machine
end

section
/-! PROOFS: what the invariant rules out. The phases a controller step goes to (R25), and where FAULTED is entered: by the
Issue of a composite command on a bad pin, by the Issue of a buffer command out of range, and by FP_READ of PACK and UNPACK
(R141, R145, log 12). -/

namespace Sys2Proof.Machine

open Sys2Proof.Claims

section
variable {s t : State}

/-! ## The edges of the state machine (R25) -/

/-- What R25 allows of a controller step from `s` to `t`. -/
structure FollowsEdge (s t : State) : Prop where
  edge : mayFollow s.phase t.phase = true
  back : s.phase = .fpWrite → (t.phase = .fpRead ↔ (s.lat.op = opGpioAlt3 ∨ s.lat.op = opGpioAlt5) ∧ s.lat.stage = 0)
  fault : t.phase = .faulted → s.lat.op = opPack ∨ s.lat.op = opUnpack

/-- A step from another phase than FP_READ and FP_WRITE has its edge only. -/
theorem followsEdge_of_edge {p q : Phase} (hp : s.phase = p) (hq : t.phase = q) (h : mayFollow p q = true)
    (hne : p ≠ .fpWrite ∧ q ≠ .faulted) : FollowsEdge s t := by
  subst hp hq
  exact ⟨h, fun e => absurd e hne.1, fun e => absurd e hne.2⟩

theorem opcode_packer_of_lt {op : BitVec 4} : 1 ≤ op.toNat ∧ op.toNat < 3 → op = opPack ∨ op = opUnpack := by
  decide +revert

/-- A register access of the field packer that fails its checks is PACK's or UNPACK's. -/
theorem packer_of_fault {code : ResCode} (hc : configWellFormed s.cfg = true) (hf : FieldLatchesOk s)
    (hm : mmioFault s.cfg s.lat.addr.toNat = some code) : s.lat.op = opPack ∨ s.lat.op = opUnpack := by
  refine opcode_packer_of_lt ⟨hf.opcode.1, Nat.lt_of_not_le fun hgpio => ?_⟩
  rw [mmioFault_of_gpio hc hf hgpio] at hm
  cases hm

theorem fpReadStep_edge (hc : configWellFormed s.cfg = true) (hinv : Inv s) (hp : s.phase = .fpRead) :
    FollowsEdge s (fpReadStep s) := by
  cases hm : mmioFault s.cfg s.lat.addr.toNat with
  | some code =>
    rw [fpReadStep_of_fault hm]
    refine ⟨by rw [hp]; rfl, fun e => ?_, fun _ => packer_of_fault hc (hinv.field (.inl hp)) hm⟩
    rw [hp] at e
    cases e
  | none =>
    by_cases hu : s.lat.op = opUnpack
    · rw [fpReadStep_of_unpack hm hu]
      exact followsEdge_of_edge hp rfl rfl ⟨nofun, nofun⟩
    · rw [fpReadStep_of_other hm hu]
      exact followsEdge_of_edge hp rfl rfl ⟨nofun, nofun⟩

theorem fpWriteStep_edge (hc : configWellFormed s.cfg = true) (hinv : Inv s) (hp : s.phase = .fpWrite) :
    FollowsEdge s (fpWriteStep s) := by
  rcases fpWriteStep_cases hinv hc hp with ⟨hop, hstage, e⟩ | ⟨hlast, e⟩ <;> rw [e]
  · exact ⟨by rw [hp]; rfl, fun _ => ⟨fun _ => ⟨hop, hstage⟩, fun _ => rfl⟩, nofun⟩
  · exact ⟨by rw [hp]; rfl, fun _ => ⟨nofun, fun h => absurd h hlast⟩, nofun⟩

theorem bufAccessStep_phase (s : State) : (bufAccessStep s).phase = .idle := by
  unfold bufAccessStep
  split <;> rfl

theorem ctrlStep_followsEdge (hc : configWellFormed s.cfg = true) (hinv : Inv s) (hs : s.phase ≠ .idle)
    (h : ctrlStep s = .next t) : FollowsEdge s t := by
  cases hp : s.phase with
  | idle => exact absurd hp hs
  | fpRead => rw [ctrlStep_of_fpRead hp] at h; cases h; exact fpReadStep_edge hc hinv hp
  | fpWrite => rw [ctrlStep_of_fpWrite hp] at h; cases h; exact fpWriteStep_edge hc hinv hp
  | bufAccess =>
    rw [ctrlStep_of_bufAccess hp] at h
    cases h
    exact followsEdge_of_edge hp (bufAccessStep_phase s) rfl ⟨nofun, nofun⟩
  | mbWaitWritable =>
    rw [writePollSpinsWhileFull s hc hp] at h
    cases h
    by_cases busy : readValue s.cfg.mboxStatusAddr.toNat s &&& s.cfg.mboxFullMask ≠ 0
    · exact followsEdge_of_edge hp (if_pos busy) rfl ⟨nofun, nofun⟩
    · exact followsEdge_of_edge hp (if_neg busy) rfl ⟨nofun, nofun⟩
  | mbPublish =>
    rw [ctrlStep_publishes hc hp] at h
    cases h
    exact followsEdge_of_edge hp rfl rfl ⟨nofun, nofun⟩
  | mbWaitReadable =>
    rw [readPollSpinsWhileEmpty s hc hp] at h
    cases h
    by_cases busy : readValue s.cfg.mboxStatusAddr.toNat s &&& s.cfg.mboxEmptyMask ≠ 0
    · exact followsEdge_of_edge hp (if_pos busy) rfl ⟨nofun, nofun⟩
    · exact followsEdge_of_edge hp (if_neg busy) rfl ⟨nofun, nofun⟩
  | mbCheckEcho =>
    rw [echoMatchComparesTheWholeWord s hc hp] at h
    cases h
    by_cases echo : readValue s.cfg.mboxReadAddr.toNat s = s.lat.db
    · exact followsEdge_of_edge hp (if_pos echo) rfl ⟨nofun, nofun⟩
    · exact followsEdge_of_edge hp (if_neg echo) rfl ⟨nofun, nofun⟩
  | mbCheckResponse =>
    rw [flagParseTestsTheWholeWord s hp] at h
    cases h
    exact followsEdge_of_edge hp rfl rfl ⟨nofun, nofun⟩
  | faulted => rw [ctrlStep_of_faulted hp] at h; cases h

/-! ## Where FAULTED is entered (R202) -/

/-- The three ways from phase `p` into FAULTED, under the invariant. -/
inductive EntersFaulted (p : Phase) (t : State) : Prop where
  | composite (idle : p = .idle) (op : t.lat.op = opGpioAlt3 ∨ t.lat.op = opGpioAlt5)
      (code : t.resCode = .fatalComposite) (info : t.resInfo = 1)
  | buffer (idle : p = .idle) (op : t.lat.op = opBufWr ∨ t.lat.op = opBufRd) (code : t.resCode = .fatalBufIndex)
  | packer (op : t.lat.op = opPack ∨ t.lat.op = opUnpack) (code : t.resCode ≠ .fatalComposite)

theorem packIssue_phase_ne_faulted (s : State) : (packIssue s).phase ≠ .faulted := by
  rcases packIssue_cases s with ⟨_, e⟩ | ⟨_, e⟩ <;> rw [e] <;> exact nofun

theorem unpackIssue_phase_ne_faulted (s : State) : (unpackIssue s).phase ≠ .faulted := by
  rcases unpackIssue_cases s with ⟨_, e⟩ | ⟨_, e⟩ <;> rw [e] <;> exact nofun

theorem compositeIssue_entersFaulted {p : Phase} (idle : p = .idle)
    (hop : s.lat.op = opGpioAlt3 ∨ s.lat.op = opGpioAlt5) (h : (compositeIssue s).phase = .faulted) :
    EntersFaulted p (compositeIssue s) := by
  rcases compositeIssue_cases s with ⟨_, e⟩ | ⟨_, e⟩ <;> rw [e] at h ⊢
  · exact .composite idle hop rfl rfl
  · cases h

theorem bufferIssue_entersFaulted {p : Phase} (idle : p = .idle) (hop : s.lat.op = opBufWr ∨ s.lat.op = opBufRd)
    (h : (bufferIssue s).phase = .faulted) : EntersFaulted p (bufferIssue s) := by
  rcases bufferIssue_cases s with ⟨_, e⟩ | ⟨_, e⟩ <;> rw [e] at h ⊢
  · exact .buffer idle hop rfl
  · cases h

theorem issuePart_entersFaulted {i : Instr} {p : Phase} (idle : p = .idle)
    (h : (issuePart i (setLat (operandLatches i s) s)).phase = .faulted) :
    EntersFaulted p (issuePart i (setLat (operandLatches i s) s)) := by
  cases i with
  | pack | gpioSet | gpioClr | gpioPull | gpioFsel => exact absurd h (packIssue_phase_ne_faulted _)
  | unpack => exact absurd h (unpackIssue_phase_ne_faulted _)
  | gpioAlt3 pin => exact compositeIssue_entersFaulted idle (.inl rfl) h
  | gpioAlt5 pin => exact compositeIssue_entersFaulted idle (.inr rfl) h
  | bufWr index value => exact bufferIssue_entersFaulted idle (.inl rfl) h
  | bufRd index => exact bufferIssue_entersFaulted idle (.inr rfl) h
  | bufAddr | mboxCallFb | mboxCallProp => cases h

theorem fpRead_of_mayFollow_faulted {p : Phase} (h : mayFollow p .faulted = true) : p = .fpRead := by
  revert h
  cases p <;> decide

theorem mmioFault_ne_fatalComposite {c : Config} {a : Nat} {code : ResCode} (h : mmioFault c a = some code) :
    code ≠ .fatalComposite := by
  unfold mmioFault at h
  split_ifs at h <;> cases h <;> exact nofun

theorem fault_of_fpReadStep_faulted (h : (fpReadStep s).phase = .faulted) :
    ∃ code, mmioFault s.cfg s.lat.addr.toNat = some code := by
  cases hm : mmioFault s.cfg s.lat.addr.toNat with
  | some code => exact ⟨code, rfl⟩
  | none =>
    by_cases hu : s.lat.op = opUnpack
    · rw [fpReadStep_of_unpack hm hu] at h
      cases h
    · rw [fpReadStep_of_other hm hu] at h
      cases h

theorem ctrlStep_entersFaulted (hc : configWellFormed s.cfg = true) (hinv : Inv s) (hs : s.phase ≠ .faulted)
    (h : ctrlStep s = .next t) (ht : t.phase = .faulted) : EntersFaulted s.phase t := by
  have busy : s.phase ≠ .idle := fun hp => by
    rw [ctrlStep_of_idle hp] at h
    cases h
    exact hs ht
  obtain ⟨edge, -, op⟩ := ctrlStep_followsEdge hc hinv busy h
  have hp : s.phase = .fpRead := fpRead_of_mayFollow_faulted (ht ▸ edge)
  rw [ctrlStep_of_fpRead hp] at h
  cases h
  obtain ⟨code, hm⟩ := fault_of_fpReadStep_faulted ht
  rw [fpReadStep_of_fault hm] at op ⊢
  exact .packer (op rfl) (mmioFault_ne_fatalComposite hm)

theorem step_entersFaulted (hinv : Inv s) (h : step s = .next t) (hs : s.phase ≠ .faulted) (ht : t.phase = .faulted) :
    EntersFaulted s.phase t := by
  obtain ⟨hc, shape⟩ := step_shape h
  cases shape with
  | illegal _ _ _ _ _ result => subst result; cases ht
  | issue c cs i idle _ _ decoded result =>
    rw [exec_of_wellFormed (wordsOf_of_decode decoded).wellFormed] at result
    cases result
    exact issuePart_entersFaulted idle ht
  | ctrl _ result =>
    have queued : Inv { s with turns := s.turns.tail } := hinv.of_same rfl rfl rfl rfl hinv.memory
    exact ctrlStep_entersFaulted (s := { s with turns := s.turns.tail }) hc queued hs result ht
  | answer _ _ _ _ result => subst result; exact absurd ht hs
  | absorb _ _ result => subst result; exact absurd ht hs
  | gpuWrite _ _ _ _ result => subst result; exact absurd ((gpuWriteBuffer_phase ..).symm.trans ht) hs
  | reset _ _ result => subst result; cases ht

end

/-- Settles O15: each phase's step by the equation of its rule; under the invariant FP_WRITE cannot raise and a failed check
is PACK's or UNPACK's. -/
theorem phasesFollowTheStateMachine : Obligations.PhasesFollowTheStateMachine := fun s t hinv hc hs h => by
  obtain ⟨edge, back, fault⟩ := ctrlStep_followsEdge hc hinv hs h
  exact ⟨edge, back, fault⟩

/-- No single GPIO command enters FAULTED. -/
theorem EntersFaulted.not_singleGpio {p : Phase} {t : State} (h : EntersFaulted p t) :
    ¬ (3 ≤ t.lat.op.toNat ∧ t.lat.op.toNat ≤ 6) := by
  cases h with
  | composite _ op _ _ => rcases op with e | e <;> rw [e] <;> decide
  | buffer _ op _ => rcases op with e | e <;> rw [e] <;> decide
  | packer op _ => rcases op with e | e <;> rw [e] <;> decide

/-- Settles O33: a code that turns fatal under the invariant is an entry into FAULTED, and of the three ways the composite
command's own is its Issue step. -/
theorem noFatalCompositeInStageOne : Obligations.NoFatalCompositeInStageOne := fun s t hinv h => by
  have enters (hs : s.phase ≠ .faulted) (ht : t.phase = .faulted) := step_entersFaulted hinv h hs ht
  refine ⟨fun hcode hold => ?_, fun hs ht hop => ?_⟩
  · have ht : t.phase = .faulted := (step_inv hinv h).record.1 (by rw [hcode]; rfl)
    have hs : s.phase ≠ .faulted := fun hs => by
      rcases step_of_faulted hs h with ⟨_, results, _⟩ | ⟨ts, turn⟩
      · exact hold ((results_eq_iff.1 results).1 ▸ hcode)
      · rw [step_of_turn (step_shape h).1 turn] at h
        cases h
        cases ht
    cases enters hs ht with
    | composite idle _ _ info => exact ⟨idle, info⟩
    | buffer _ _ code => exact nomatch code.symm.trans hcode
    | packer _ code => exact absurd hcode code
  · cases enters hs ht with
    | composite idle _ code info => exact ⟨idle, code, info⟩
    | buffer _ op _ => rcases op with e | e <;> rw [e] at hop <;> exact absurd hop (by decide)
    | packer op _ => rcases op with e | e <;> rw [e] at hop <;> exact absurd hop (by decide)

end Sys2Proof.Machine
end

section
/-! PROOFS, families 40_field_packer.md and 41_gpio.md: the field packer's commands run to their end. Each command's Issue
step starts one field access; the access is a fault in its FP_READ, a read, or the read-modify-write of R125 and R126. -/

namespace Sys2Proof.Machine

open Sys2Proof.Claims

/-! ## A field access that fails its checks (R62, R125) -/

section
variable {l : Latches} {s : State} {a : Nat}

theorem ctrlSteps_fault {code : ResCode} (ha : l.addr.toNat = a) (hm : mmioFault s.cfg a = some code) :
    ctrlSteps 1 (setPhase .fpRead (setLat l s)) = .next
      { s with phase := .faulted, resCode := code, resData := 0, resInfo := BitVec.ofNat 32 a, lat := l } := by
  subst ha
  rw [ctrlSteps_one, ctrlStep_of_fpRead (setPhase_phase _ _), fpReadStep_of_fault hm]
  rfl

/-- A register of a bank is as aligned as the bank. -/
theorem mmioFault_regOf_of_bad {c : Config} {p w base : Nat} (h : base % 4 ≠ 0 ∨ inWindow c (regOf p w base) = false) :
    mmioFault c (regOf p w base) = some (if base % 4 ≠ 0 then .fatalAlign else .fatalWindow) := by
  have aligned : regOf p w base % 4 = base % 4 := by
    unfold regOf
    omega
  split_ifs with hb
  · exact mmioFault_of_misaligned (aligned ▸ hb)
  · exact mmioFault_of_outside (aligned.trans (not_not.1 hb)) (h.resolve_left hb)

end

/-! ## PACK and UNPACK (R124, R127) -/

section
variable {pin : BitVec 8} {w : BitVec 6} {maxp : BitVec 8} {base : Word} {s : State}

/-- UNPACK on a pin out of range ends at Issue. -/
theorem exec_unpack_of_bad (hw : widthLegal w = true) (hp : pinBad pin maxp = true) :
    exec (.unpack pin w maxp base) s =
      .next (complete .errRange 0 1 (latchOpa base (latchCmd opUnpack 0 pin w maxp s))) := by
  rw [exec_of_wellFormed (i := .unpack pin w maxp base) hw, issuePart, unpackIssue, if_pos (by exact hp)]
  rfl

end

/-- Settles O22: the Issue step starts the read-modify-write of the pin's register, whose write is one `memWrite`. -/
theorem packCompletes : Obligations.PackCompletes := fun pin w maxp base v s h1 h2 hpin hv hbase hin => by
  have hw : widthLegal w = true := widthLegal_iff.2 ⟨h1, h2⟩
  have hok : rangeCheck pin v w maxp = 0 := rangeCheck_eq_zero.2 ⟨hpin, hv⟩
  exact ⟨_, ⟨⟨_, exec_pack_of_ok hw hok⟩, runCommand_pack hw hok (mmioFault_regOf hbase hin)⟩,
    wordWritten_memWrite _ _ _ _ s⟩

/-- Settles O23: the Issue step starts the access, whose read is the last step. -/
theorem unpackCompletes : Obligations.UnpackCompletes := fun pin w maxp base s h1 h2 hpin hbase hin => by
  have started := exec_unpack_of_ok (base := base) (s := s) (widthLegal_iff.2 ⟨h1, h2⟩) (pinBad_eq_false.2 hpin)
  refine ⟨⟨_, started⟩, ?_⟩
  rw [runCommand_of_next started, ctrlSteps_unpack (addr_toNat pin w.toNat base) (mmioFault_regOf hbase hin) rfl,
    afterRead_ctrl]
  exact congrArg (fun shift => Host.Outcome.next (complete .ok (extractField _ shift _) _ _))
    (shift_toNat pin.toNat w.toNat h1 h2)

/-- Settles O24: the range check decides at Issue. -/
theorem packerRangeErrorTouchesNothing : Obligations.PackerRangeErrorTouchesNothing :=
  fun _ _ _ _ _ _ h1 h2 => ⟨fun hbad => exec_pack_of_bad (widthLegal_iff.2 ⟨h1, h2⟩) hbad,
    fun hpin => exec_unpack_of_bad (widthLegal_iff.2 ⟨h1, h2⟩) (decide_eq_true hpin)⟩

/-- Settles O25: the Issue step starts the access, whose read fails a check of R62. -/
theorem packerFatalOnMisalignedOrOutside : Obligations.PackerFatalOnMisalignedOrOutside :=
  fun pin w maxp base v s i h1 h2 hpin hi hbad => by
    have hw : widthLegal w = true := widthLegal_iff.2 ⟨h1, h2⟩
    have hm := mmioFault_regOf_of_bad (p := pin.toNat) (w := w.toNat) hbad
    rcases hi with ⟨rfl, hv⟩ | rfl
    · rw [runCommand_of_next (exec_pack_of_ok hw (rangeCheck_eq_zero.2 ⟨hpin, hv⟩))]
      exact ⟨_, ctrlSteps_fault (addr_toNat pin w.toNat base) hm⟩
    · rw [runCommand_of_next (exec_unpack_of_ok hw (pinBad_eq_false.2 hpin))]
      exact ⟨_, ctrlSteps_fault (addr_toNat pin w.toNat base) hm⟩

/-! ## The single GPIO commands (R140-R144) -/

section
variable {i : Instr} {op : BitVec 4} {pin : BitVec 8} {w : BitVec 6} {base v : Word} {s : State}

theorem gpioIssue_of_bad (hbad : rangeCheck pin v w 53 ≠ 0) : gpioIssue op pin base w v s =
    complete .errRange 0 (rangeCheck pin v w 53) (loadGpio base w v (latchCmd op 0 pin 0 0 s)) := by
  rw [gpioIssue, packIssue, if_pos (by exact hbad)]
  rfl

theorem gpioIssue_of_ok (hok : rangeCheck pin v w 53 = 0) : gpioIssue op pin base w v s =
    setPhase .fpRead (setLat { geometryLatches s.lat pin w 53 base v with op := op, ch := 0 } s) := by
  rw [gpioIssue, packIssue, if_neg (by exact not_not.2 hok)]
  rfl

/-- A command with that Issue step, on an admitted pin and value and an admitted register. -/
theorem gpioCommandCompletes (he : exec i s = .next (gpioIssue op pin base w v s)) (hop : SingleRmw op)
    (hw : widthLegal w = true) (hok : rangeCheck pin v w 53 = 0)
    (hm : mmioFault s.cfg (regOf pin.toNat w.toNat base.toNat) = none) : GpioCommandCompletes i op pin w base v s := by
  obtain ⟨h1, h2⟩ := widthLegal_iff.1 hw
  refine ⟨_, ⟨⟨_, he⟩, ?_⟩, wordWritten_memWrite .ctrl .register _ _ s⟩
  rw [runCommand_of_next he, gpioIssue_of_ok hok]
  exact ctrlSteps_rmw (addr_toNat pin w.toNat base) hm hop.1 (fun h => hop.2 h.1)
    (congrArg (mergeField _ v · _) (shift_toNat pin.toNat w.toNat h1 h2))

/-- A command with that Issue step, on a pin or value out of range. -/
theorem gpioRangeError (he : exec i s = .next (gpioIssue op pin base w v s)) {bad : Word}
    (hbad : rangeCheck pin v w 53 = bad) (hne : bad ≠ 0) : GpioRangeError i op pin w base v bad s := by
  subst hbad
  exact he.trans (congrArg _ (gpioIssue_of_bad hne))

/-- The two error bits of R121, for a pin checked against 53. -/
theorem rangeCheck_eq_ofNat {mask : Nat} (hmask : fieldMask w.toNat = mask) :
    rangeCheck pin v w 53 = BitVec.ofNat 32 ((if 53 < pin.toNat then 1 else 0) + (if mask < v.toNat then 2 else 0)) := by
  subst hmask
  refine BitVec.eq_of_toNat_eq ?_
  rw [rangeCheck_toNat, BitVec.toNat_ofNat, Nat.mod_eq_of_lt (by split_ifs <;> decide)]
  rfl

end

/-- With a bit of R121 set, the check has found an error. -/
theorem errorBits_ne_zero {p q : Prop} [Decidable p] [Decidable q] (h : p ∨ q) :
    BitVec.ofNat 32 ((if p then 1 else 0) + (if q then 2 else 0)) ≠ 0 := by
  rcases h with h | h <;> rw [if_pos h] <;> split_ifs <;> decide

/-- Settles O27: each command is the read-modify-write of its bank, whose registers a well-formed configuration admits. -/
theorem gpioSetAndClearComplete : Obligations.GpioSetAndClearComplete := fun pin s hc hpin => by
  obtain ⟨-, hset, hclr, -⟩ := configWellFormed_banks hc
  have hok : rangeCheck pin 1 1 53 = 0 := rangeCheck_eq_zero.2 ⟨hpin, by decide⟩
  have hk : pin.toNat / 32 * 4 ≤ 0x4 := by omega
  exact ⟨gpioCommandCompletes exec_gpioSet singleRmw_opGpioSet rfl hok (mmioFault_of_bank hset hk),
    gpioCommandCompletes exec_gpioClr singleRmw_opGpioClr rfl hok (mmioFault_of_bank hclr hk)⟩

/-- Settles O28: as O27, for the two commands with a value. -/
theorem gpioPullAndFselComplete : Obligations.GpioPullAndFselComplete := fun pin v s hc hpin => by
  obtain ⟨hfsel, -, -, hpull⟩ := configWellFormed_banks hc
  refine ⟨fun hv => ?_, fun hv => ?_⟩
  · exact gpioCommandCompletes exec_gpioPull singleRmw_opGpioPull rfl (rangeCheck_eq_zero.2 ⟨hpin, hv⟩)
      (mmioFault_of_bank hpull (show pin.toNat / 16 * 4 ≤ 0xC by omega))
  · exact gpioCommandCompletes exec_gpioFsel singleRmw_opGpioFsel rfl (rangeCheck_eq_zero.2 ⟨hpin, hv⟩)
      (mmioFault_of_bank hfsel (show pin.toNat / 10 * 4 ≤ 0x14 by omega))

/-- Settles O29: no way into FAULTED is a single GPIO command's, and the range check decides at Issue. -/
theorem gpioRangeErrorsPropagate : Obligations.GpioRangeErrorsPropagate := by
  refine ⟨fun s t hinv h hs ht => (step_entersFaulted hinv h hs ht).not_singleGpio, fun pin v s =>
    ⟨fun hpin => ?_, fun hbad => ?_, fun hbad => ?_⟩⟩
  · have hcheck : rangeCheck pin 1 1 53 = 1 := by
      rw [rangeCheck_eq_ofNat (mask := 1) rfl, if_pos hpin]
      rfl
    exact ⟨gpioRangeError exec_gpioSet hcheck (by decide), gpioRangeError exec_gpioClr hcheck (by decide)⟩
  · exact gpioRangeError exec_gpioPull (rangeCheck_eq_ofNat rfl) (errorBits_ne_zero hbad)
  · exact gpioRangeError exec_gpioFsel (rangeCheck_eq_ofNat rfl) (errorBits_ne_zero hbad)

end Sys2Proof.Machine
end

section
/-! PROOFS, family 41_gpio.md: the composite commands (R145-R147). Stage 0 is a read-modify-write of the pull bank whose
FP_WRITE begins stage 1; whether a sub-operation fails is decided at three places, and each way is one equation. -/

namespace Sys2Proof.Machine

open Sys2Proof.Claims

/-! ## Steps in a row -/

theorem ctrlSteps_add_of_next {s t : State} {m n : Nat} (h : ctrlSteps m s = .next t) :
    ctrlSteps (m + n) s = ctrlSteps n t := by
  induction m generalizing s with
  | zero => cases h; rw [Nat.zero_add]
  | succ m ih =>
    rw [Nat.succ_add, ctrlSteps]
    rw [ctrlSteps] at h
    cases hstep : ctrlStep s with
    | next u => rw [hstep] at h; exact ih h
    | fault r => rw [hstep] at h; cases h
    | refused r => rw [hstep] at h; cases h

/-! ## The write of stage 0 -/

/-- The state in which "begin stage 1" runs: the read and the write of stage 0 made, FP_WRITE not left. -/
def afterStage0 (s : State) (l : Latches) (a : Nat) (new : Word) : State :=
  { drawn a s with
      phase := .fpWrite, lat := { l with old := readValue a s, new := new },
      mem := (memWrite .ctrl .register a new s).mem, inbox := inboxAfter s a new,
      events := writeEvent a new :: readEvent a (readValue a s) :: s.events }

theorem ctrlSteps_stage0 {l : Latches} {s : State} {a : Nat} {new : Word} (ha : l.addr.toNat = a)
    (hm : mmioFault s.cfg a = none) (hop : l.op = opGpioAlt3 ∨ l.op = opGpioAlt5) (hstage : l.stage = 0)
    (hnew : mergeField (readValue a s) l.val l.shift.toNat l.fmask = new) :
    ctrlSteps 2 (setPhase .fpRead (setLat l s)) = .next (beginStage1 (afterStage0 s l a new)) := by
  subst ha hnew
  have hu : l.op ≠ opUnpack := by rcases hop with h | h <;> rw [h] <;> decide
  have hread := (ctrlStep_of_fpRead (s := setPhase .fpRead (setLat l s)) rfl).trans
    (congrArg _ (fpReadStep_of_other hm hu))
  rw [ctrlSteps_succ_of_next hread, ctrlSteps_one, ctrlStep_of_fpWrite (setPhase_phase _ _),
    fpWriteStep_of_stage0 (by simpa using hm) ⟨by simpa using hop, by simpa using hstage⟩]
  congr 2
  ext1 <;> simp [afterStage0, drawn, inboxAfter, memWrite_inbox, memWrite_mem, storesAt, readEvent, writeEvent]

theorem beginStage1_of_bad {s : State} {code bad : Word} (hcode : compositeCode s = code)
    (hbad : rangeCheck s.lat.pin code fselWidth gpioMaxPin = bad) (hne : bad ≠ 0) :
    beginStage1 s = raiseFatal .fatalComposite (compositeInfo 1 bad)
      (loadGpio s.cfg.gpfselBase fselWidth code (latchStage 1 s)) := by
  subst hcode hbad
  rw [beginStage1, if_pos hne]

/-! ## Both commands (R146, R147) -/

section
variable {i : Instr} {op : BitVec 4} {pin : BitVec 8} {code : Word} {s : State}

/-- The latches stage 0 starts with. -/
def pullLatches (op : BitVec 4) (pin : BitVec 8) (s : State) : Latches :=
  { geometryLatches s.lat pin 2 53 s.cfg.gppullBase 0 with op := op, ch := 0, stage := 0 }

/-- The pin's pull register. -/
def pullReg (pin : BitVec 8) (s : State) : Nat := regOf pin.toNat 2 s.cfg.gppullBase.toNat

/-- The pin's function-select register. -/
def fselReg (pin : BitVec 8) (s : State) : Nat := regOf pin.toNat 3 s.cfg.gpfselBase.toNat

/-- The word stage 0 writes. -/
def pullWord (pin : BitVec 8) (s : State) : Word := mergedWord s pin.toNat 2 s.cfg.gppullBase.toNat 0

/-- The state between the stages (R241): the pull field is none and stage 1 is about to read. -/
def betweenStages (op : BitVec 4) (pin : BitVec 8) (code : Word) (s : State) : State :=
  { drawn (pullReg pin s) s with
      phase := .fpRead, mem := (memWrite .ctrl .register (pullReg pin s) (pullWord pin s) s).mem,
      inbox := inboxAfter s (pullReg pin s) (pullWord pin s),
      lat := { geometryLatches s.lat pin 3 53 s.cfg.gpfselBase code with
                 op := op, ch := 0, stage := 1, old := readValue (pullReg pin s) s, new := pullWord pin s },
      events := writeEvent (pullReg pin s) (pullWord pin s) ::
        readEvent (pullReg pin s) (readValue (pullReg pin s) s) :: s.events }

/-- A composite command: its opcode, its Issue step and the function code of its stage 1. -/
structure IsComposite (i : Instr) (op : BitVec 4) (pin : BitVec 8) (code : Word) (s : State) : Prop where
  opcode : op = opGpioAlt3 ∨ op = opGpioAlt5
  issue : exec i s = .next (compositeIssue (latchCmd op 0 pin 0 0 s))
  function : code = if op = opGpioAlt3 then fselAlt3 else s.cfg.fselAlt5

theorem isComposite_gpioAlt3 : IsComposite (.gpioAlt3 pin) opGpioAlt3 pin 7 s := ⟨.inl rfl, rfl, rfl⟩
theorem isComposite_gpioAlt5 : IsComposite (.gpioAlt5 pin) opGpioAlt5 pin s.cfg.fselAlt5 s := ⟨.inr rfl, rfl, rfl⟩

theorem IsComposite.exec_of_bad (h : IsComposite i op pin code s) (hpin : 53 < pin.toNat) :
    exec i s = .next (raiseFatal .fatalComposite (compositeInfo 0 1) (latchCmd op 0 pin 0 0 s)) := by
  have bad : pinBad pin 53 = true := decide_eq_true hpin
  rw [h.issue, compositeIssue, if_pos (by exact bad)]

theorem IsComposite.exec_of_ok (h : IsComposite i op pin code s) (hpin : pin.toNat ≤ 53) :
    exec i s = .next (setPhase .fpRead (setLat (pullLatches op pin s) s)) := by
  have ok : ¬ pinBad pin 53 = true := by rw [pinBad_eq_false.2 hpin]; decide
  rw [h.issue, compositeIssue, if_neg (by exact ok)]
  rfl

theorem IsComposite.runCommand_eq (h : IsComposite i op pin code s) (hpin : pin.toNat ≤ 53) (n : Nat) :
    runCommand i n s = ctrlSteps n (setPhase .fpRead (setLat (pullLatches op pin s) s)) :=
  runCommand_of_next (h.exec_of_ok hpin)

/-- Stage 0 to its end. -/
theorem IsComposite.runCommand_stage0 (h : IsComposite i op pin code s) (hpin : pin.toNat ≤ 53)
    (hm : mmioFault s.cfg (pullReg pin s) = none) :
    runCommand i 2 s = .next (beginStage1 (afterStage0 s (pullLatches op pin s) (pullReg pin s) (pullWord pin s))) := by
  rw [h.runCommand_eq hpin]
  exact ctrlSteps_stage0 (addr_toNat pin 2 s.cfg.gppullBase) hm h.opcode rfl
    (congrArg (mergeField _ 0 · _) (shift_toNat pin.toNat 2 (by decide) (by decide)))

theorem IsComposite.compositeCode (h : IsComposite i op pin code s) (a : Nat) (new : Word) :
    compositeCode (afterStage0 s (pullLatches op pin s) a new) = code := h.function.symm

/-- "begin stage 1" with a function code that fits. -/
theorem IsComposite.runCommand_betweenStages (h : IsComposite i op pin code s) (hpin : pin.toNat ≤ 53)
    (hm : mmioFault s.cfg (pullReg pin s) = none) (hcode : code.toNat ≤ 7) :
    runCommand i 2 s = .next (betweenStages op pin code s) := by
  have ok : rangeCheck pin code fselWidth gpioMaxPin = 0 := rangeCheck_eq_zero.2 ⟨hpin, hcode⟩
  rw [h.runCommand_stage0 hpin hm, beginStage1, h.compositeCode, if_neg (by exact not_not.2 ok)]
  rfl

/-- "begin stage 1" with a function code that does not fit: bit 1 of the range check, stage 1 (R145). -/
theorem IsComposite.runCommand_badCode (h : IsComposite i op pin code s) (hpin : pin.toNat ≤ 53)
    (hm : mmioFault s.cfg (pullReg pin s) = none) (hcode : 7 < code.toNat) :
    runCommand i 2 s = .next (raiseFatal .fatalComposite 0x102 (loadGpio s.cfg.gpfselBase fselWidth code
      (latchStage 1 (afterStage0 s (pullLatches op pin s) (pullReg pin s) (pullWord pin s))))) := by
  have bad : rangeCheck pin code fselWidth gpioMaxPin = 2 := by
    refine (rangeCheck_eq_ofNat (mask := 7) rfl).trans ?_
    rw [if_neg (by omega), if_pos hcode]
    rfl
  rw [h.runCommand_stage0 hpin hm, beginStage1_of_bad (h.compositeCode ..) bad (by decide)]
  rfl

/-- Stage 1 starts its access as any command does. -/
theorem betweenStages_eq : betweenStages op pin code s =
    setPhase .fpRead (setLat (betweenStages op pin code s).lat (betweenStages op pin code s)) := rfl

theorem IsComposite.completes (h : IsComposite i op pin code s) (hpin : pin.toNat ≤ 53)
    (hm : mmioFault s.cfg (pullReg pin s) = none) (hm' : mmioFault s.cfg (fselReg pin s) = none) (hcode : code.toNat ≤ 7) :
    CompositeCompletes i op pin code s := by
  have exec := h.exec_of_ok hpin
  have between := h.runCommand_betweenStages hpin hm hcode
  refine ⟨betweenStages op pin code s, _, _, ⟨⟨_, exec⟩, between⟩, ⟨rfl, wordWritten_memWrite .ctrl .register _ _ s⟩,
    ⟨⟨_, exec⟩, ?_⟩, wordWritten_memWrite .ctrl .register _ _ _⟩
  rw [h.runCommand_eq hpin] at between ⊢
  rw [ctrlSteps_add_of_next (m := 2) (n := 2) between, betweenStages_eq]
  have hu : op ≠ opUnpack := by rcases h.opcode with e | e <;> rw [e] <;> decide
  exact ctrlSteps_rmw (addr_toNat pin 3 s.cfg.gpfselBase) hm' hu (fun stage => absurd stage.2 (show (1 : BitVec 1) ≠ 0 by decide))
    (congrArg (mergeField _ code · _) (shift_toNat pin.toNat 3 (by decide) (by decide)))

theorem IsComposite.fails (h : IsComposite i op pin code s) (hpin : pin.toNat ≤ 53) : CompositeFails i pin code s := by
  have exec := h.exec_of_ok hpin
  refine ⟨fun c hm => ⟨pullLatches op pin s, ⟨_, exec⟩, ?_⟩, fun hm => ⟨fun hcode => ?_, fun hcode c hm' => ?_⟩⟩
  · rw [h.runCommand_eq hpin]
    exact ctrlSteps_fault (addr_toNat pin 2 s.cfg.gppullBase) hm
  · exact ⟨_, _, wordWritten_memWrite .ctrl .register _ _ s, ⟨_, exec⟩, h.runCommand_badCode hpin hm hcode⟩
  · have between := h.runCommand_betweenStages hpin hm hcode
    refine ⟨(betweenStages op pin code s).lat, _, wordWritten_memWrite .ctrl .register _ _ s, ⟨_, exec⟩, ?_⟩
    rw [h.runCommand_eq hpin] at between ⊢
    rw [ctrlSteps_add_of_next (m := 2) (n := 1) between, betweenStages_eq]
    exact ctrlSteps_fault (addr_toNat pin 3 s.cfg.gpfselBase) hm'

end

/-- Settles O31: a well-formed configuration admits both registers and both function codes; elsewhere the first failure
decides. -/
theorem compositeCommandsComplete : Obligations.CompositeCommandsComplete := fun pin s hpin => by
  refine ⟨fun hc => ?_, isComposite_gpioAlt3.fails hpin, isComposite_gpioAlt5.fails hpin⟩
  obtain ⟨hfsel, -, -, hpull⟩ := configWellFormed_banks hc
  have hm : mmioFault s.cfg (pullReg pin s) = none := mmioFault_of_bank hpull (show pin.toNat / 16 * 4 ≤ 0xC by omega)
  have hm' : mmioFault s.cfg (fselReg pin s) = none := mmioFault_of_bank hfsel (show pin.toNat / 10 * 4 ≤ 0x14 by omega)
  exact ⟨isComposite_gpioAlt3.completes hpin hm hm' (by decide),
    isComposite_gpioAlt5.completes hpin hm hm' (configWellFormed_fselAlt5 hc)⟩

/-- Settles O32: the pin is checked at Issue. -/
theorem compositeOnABadPinIsFatal : Obligations.CompositeOnABadPinIsFatal := fun pin s hpin i op hi => by
  simp only [List.mem_cons, List.not_mem_nil, or_false, Prod.mk.injEq] at hi
  rcases hi with ⟨rfl, rfl⟩ | ⟨rfl, rfl⟩
  · exact isComposite_gpioAlt3.exec_of_bad hpin
  · exact isComposite_gpioAlt5.exec_of_bad hpin

end Sys2Proof.Machine
end

section
/-! PROOFS, family 42_mailbox_buffer.md: BUF.WR and BUF.RD (R161, R162), what a read after a write gives (R71), and who
changes the buffer (R164). -/

namespace Sys2Proof.Machine

open Sys2Proof.Claims

/-! ## What a read of another word gives -/

theorem Memory.wordAt_congr {m n : Memory} {a : Nat} (h : ∀ b, a ≤ b → b < a + 4 → m.byteAt b = n.byteAt b) :
    m.wordAt a = n.wordAt a := by
  unfold Memory.wordAt
  rw [h a (by omega) (by omega), h (a + 1) (by omega) (by omega), h (a + 2) (by omega) (by omega),
    h (a + 3) (by omega) (by omega)]

/-- Of memory a read's value depends on the word read only. -/
theorem readValue_congr_word {a : Nat} {s t : State} (hm : s.mem.wordAt a = t.mem.wordAt a)
    (ha : s.answers = t.answers) (hd : s.draws = t.draws) : readValue a s = readValue a t := by
  simp only [readValue, hm, drawAt, ha, hd]

/-! ## The two commands to their end -/

section
variable {i v : Word} {s : State}

theorem exec_bufWr_of_ok (h : i.toNat < s.cfg.bufWords) : exec (.bufWr i v) s = .next (setPhase .bufAccess (setLat
    { s.lat with op := opBufWr, ch := 0, pin := 0, w := 0, maxp := 0, base := i, idx := i, val := v } s)) :=
  congrArg Host.Outcome.next (if_neg (Nat.not_le.2 h))

theorem exec_bufRd_of_ok (h : i.toNat < s.cfg.bufWords) : exec (.bufRd i) s = .next (setPhase .bufAccess (setLat
    { s.lat with op := opBufRd, ch := 0, pin := 0, w := 0, maxp := 0, base := i, idx := i } s)) :=
  congrArg Host.Outcome.next (if_neg (Nat.not_le.2 h))

end

theorem memWrite_setPhase (who : Agent) (sp : Space) (a : Nat) (v : Word) (p : Phase) (s : State) :
    memWrite who sp a v (setPhase p s) = setPhase p (memWrite who sp a v s) := by
  rw [memWrite_eq, memWrite_eq who sp a v s, memWrite_mem, memWrite_mem, memWrite_inbox, memWrite_inbox]
  rfl

/-- Settles O34: the Issue step enters BUF_ACCESS, whose step is one write. -/
theorem bufWrCompletes : Obligations.BufWrCompletes := fun i v s hi => by
  have started := exec_bufWr_of_ok (v := v) hi
  refine ⟨(memWrite .ctrl .buffer (bufWordAddr s.cfg i.toNat) v s).mem, ⟨⟨_, started⟩, ?_⟩,
    memWrite_wordAt_same _ _ _ _ _ (storesAt_bufWordAddr hi), fun b hb => memWrite_byteAt_outside _ _ _ _ _ hb⟩
  rw [runCommand_of_next started, ctrlSteps_one, ctrlStep_of_bufAccess (setPhase_phase _ _), bufAccessStep_of_write rfl,
    memWrite_setPhase, memWrite_setLat, memWrite_eq, memWrite_inbox]
  rfl

/-- Settles O35: the Issue step enters BUF_ACCESS, whose step is one read. -/
theorem bufRdCompletes : Obligations.BufRdCompletes := fun i s hi => by
  have started := exec_bufRd_of_ok hi
  refine ⟨⟨_, started⟩, ?_⟩
  have notWrite : opBufRd ≠ opBufWr := by decide
  rw [runCommand_of_next started, ctrlSteps_one, ctrlStep_of_bufAccess (setPhase_phase _ _),
    bufAccessStep_of_read notWrite, afterRead_setPhase, afterRead_setLat, afterRead_ctrl]
  rfl

/-- What a later read can tell of a BUF.WR. -/
theorem runCommand_bufWr (i v : Word) (s : State) (hi : i.toNat < s.cfg.bufWords) :
    ∃ t, runCommand (.bufWr i v) 1 s = .next t ∧ t.cfg = s.cfg ∧ t.answers = s.answers ∧ t.draws = s.draws ∧
      t.mem.wordAt (bufWordAddr s.cfg i.toNat) = some v ∧
      ∀ b, b < bufWordAddr s.cfg i.toNat ∨ bufWordAddr s.cfg i.toNat + 4 ≤ b → t.mem.byteAt b = s.mem.byteAt b := by
  obtain ⟨m, ⟨-, written⟩, same, outside⟩ := bufWrCompletes i v s hi
  exact ⟨_, written, rfl, rfl, rfl, same, outside⟩

/-- Settles O36: the word written is listed, and every other word has its old bytes. -/
theorem bufferReadsTheLastWrite : Obligations.BufferReadsTheLastWrite := fun i j v s hi hj => by
  obtain ⟨t, written, cfg, answers, draws, same, outside⟩ := runCommand_bufWr i v s hi
  obtain ⟨-, read⟩ := bufRdCompletes j t (by rwa [cfg])
  refine ⟨t, _, written, read, rfl, ?_⟩
  rw [← cfg] at same outside hi ⊢
  split_ifs with hij
  · subst hij
    exact readValue_of_stored same
  · have apart : j.toNat ≠ i.toNat := fun e => hij (BitVec.eq_of_toNat_eq e)
    have word : t.mem.wordAt (bufWordAddr t.cfg j.toNat) = s.mem.wordAt (bufWordAddr t.cfg j.toNat) :=
      Memory.wordAt_congr fun b hb hb' => outside b (by unfold bufWordAddr at *; omega)
    exact readValue_congr_word word answers draws

/-- Settles O37: the index is checked at Issue. -/
theorem bufferIndexOutOfRangeIsFatal : Obligations.BufferIndexOutOfRangeIsFatal := fun _ _ _ h =>
  ⟨congrArg Host.Outcome.next (if_pos h), congrArg Host.Outcome.next (if_pos h)⟩

/-! ## Who changes the buffer (R164) -/

/-- A write that changes a byte has it in its word. -/
theorem memWrite_changes {who : Agent} {sp : Space} {a b : Nat} {v : Word} {s : State}
    (h : (memWrite who sp a v s).mem.byteAt b ≠ s.mem.byteAt b) : a ≤ b ∧ b < a + 4 := by
  by_contra hout
  exact h (memWrite_byteAt_outside _ _ _ _ _ (by omega))

/-- The buffer is made of whole aligned words. -/
theorem inBuffer_of_aligned {c : Config} {a b : Nat} (hc : configWellFormed c = true) (ha : a % 4 = 0)
    (hab : a ≤ b ∧ b < a + 4) (hb : inBuffer c b = true) : inBuffer c a = true := by
  obtain ⟨aligned, -, -⟩ := configWellFormed_buffer hc
  simp only [inBuffer, Bool.and_eq_true, decide_eq_true_eq] at hb ⊢
  omega

/-- Where the buffer is outside the window, the controller changes it by BUF.WR only. -/
theorem CtrlAccess.changes_buffer {s t : State} {b : Nat} (h : CtrlAccess s t) (hc : configWellFormed s.cfg = true)
    (outside : ∀ a, inBuffer s.cfg a = true → inWindow s.cfg a = false) (hb : inBuffer s.cfg b = true)
    (hne : t.mem.byteAt b ≠ s.mem.byteAt b) : s.phase = .bufAccess ∧ s.lat.op = opBufWr := by
  cases h with
  | none _ mem _ => exact absurd (congrArg (Memory.byteAt · b) mem) hne
  | read _ _ _ mem _ _ => exact absurd (congrArg (Memory.byteAt · b) mem) hne
  | write sp a v _ mem _ place =>
    rcases place with ⟨_, admitted, _⟩ | ⟨_, phase, op, _⟩
    · obtain ⟨aligned, inside⟩ := mmioFault_eq_none.1 admitted
      have buffer := inBuffer_of_aligned hc aligned (memWrite_changes (mem ▸ hne)) hb
      exact nomatch (outside a buffer).symm.trans inside
    · exact ⟨phase, op⟩

/-- Settles O39: a register write that reached the buffer would be in the window, and MBOX_HW writes during a call only. -/
theorem onlyBufWrAndTheGpuChangeTheBuffer : Obligations.OnlyBufWrAndTheGpuChangeTheBuffer :=
  fun s t b outside h hb hne => by
    obtain ⟨hc, shape⟩ := step_shape h
    cases shape with
    | illegal _ _ _ _ _ result => subst result; exact absurd rfl hne
    | issue _ _ _ _ _ _ _ result =>
      obtain ⟨-, mem, -⟩ := exec_keeps result
      exact absurd (congrArg (Memory.byteAt · b) mem) hne
    | ctrl _ result => exact .inl ((ctrlStep_access result).changes_buffer hc outside hb hne)
    | answer _ _ _ _ result => subst result; exact absurd rfl hne
    | absorb _ _ result => subst result; exact absurd rfl hne
    | gpuWrite i v ts turn result =>
      refine .inr ⟨by_contra fun idle => hne ?_, i, v, ts, turn⟩
      rw [result, gpuWriteBuffer_of_disabled (s := { s with turns := ts }) v fun enabled => idle enabled.1]
    | reset _ _ result => subst result; exact absurd rfl hne

end Sys2Proof.Machine
end

section
/-! PROOFS, family 43_mailbox_channel.md: a straight call is its five controller steps (R171-R176), each on
the answer the environment has fixed for its read. -/

namespace Sys2Proof.Machine

open Sys2Proof.Claims

/-! ## The steps of a call on a fixed answer -/

section
variable {s : State} {a : Nat} {v : Word} {rest : List (Nat × Word)}

/-- The oldest answer, if it is for this address, is what a read of an unlisted word takes. -/
theorem readValue_of_answer (hm : s.mem.wordAt a = none) (ha : s.answers = (a, v) :: rest) : readValue a s = v :=
  (readValue_of_unstored hm).trans (drawAt_of_pending (by simp [ha, pendingAnswer]))

theorem drawn_of_answer (hm : s.mem.wordAt a = none) (ha : s.answers = (a, v) :: rest) :
    drawn a s = { s with answers := rest } := by
  have pending : pendingAnswer s.answers a = some v := by simp [ha, pendingAnswer]
  rw [drawn, afterRead_of_pending hm pending, ha, dropAnswer, if_pos rfl]
  rfl

theorem ctrlStep_writable (hc : configWellFormed s.cfg = true) (hp : s.phase = .mbWaitWritable)
    (hm : s.mem.wordAt s.cfg.mboxStatusAddr.toNat = none) (ha : s.answers = (s.cfg.mboxStatusAddr.toNat, v) :: rest)
    (free : v &&& s.cfg.mboxFullMask = 0) :
    ctrlStep s = .next { s with
      phase := .mbPublish, answers := rest, events := readEvent s.cfg.mboxStatusAddr.toNat v :: s.events } := by
  rw [writePollSpinsWhileFull s hc hp, readValue_of_answer hm ha, drawn_of_answer hm ha, if_neg (not_not.2 free)]

theorem ctrlStep_publish_absorbed (hc : configWellFormed s.cfg = true) (hp : s.phase = .mbPublish)
    (hstore : storesAt s.cfg.mboxWriteAddr.toNat s = false) :
    ctrlStep s = .next { s with
      phase := .mbWaitReadable, inbox := s.inbox ++ [s.lat.db],
      events := writeEvent s.cfg.mboxWriteAddr.toNat s.lat.db :: s.events } := by
  rw [ctrlStep_publishes hc hp, memWrite_mem, hstore, if_neg Bool.false_ne_true]

theorem ctrlStep_readable (hc : configWellFormed s.cfg = true) (hp : s.phase = .mbWaitReadable)
    (hm : s.mem.wordAt s.cfg.mboxStatusAddr.toNat = none) (ha : s.answers = (s.cfg.mboxStatusAddr.toNat, v) :: rest)
    (full : v &&& s.cfg.mboxEmptyMask = 0) :
    ctrlStep s = .next { s with
      phase := .mbCheckEcho, answers := rest, events := readEvent s.cfg.mboxStatusAddr.toNat v :: s.events } := by
  rw [readPollSpinsWhileEmpty s hc hp, readValue_of_answer hm ha, drawn_of_answer hm ha, if_neg (not_not.2 full)]

theorem ctrlStep_echo (hc : configWellFormed s.cfg = true) (hp : s.phase = .mbCheckEcho)
    (hm : s.mem.wordAt s.cfg.mboxReadAddr.toNat = none) (ha : s.answers = (s.cfg.mboxReadAddr.toNat, s.lat.db) :: rest) :
    ctrlStep s = .next { s with
      phase := .mbCheckResponse, answers := rest, lat := { s.lat with echo := s.lat.db },
      events := readEvent s.cfg.mboxReadAddr.toNat s.lat.db :: s.events } := by
  rw [echoMatchComparesTheWholeWord s hc hp, readValue_of_answer hm ha, drawn_of_answer hm ha, if_pos rfl]

theorem ctrlStep_response (hp : s.phase = .mbCheckResponse) (hw : s.mem.wordAt (s.cfg.bufAddr.toNat + 4) = some v) :
    ctrlStep s = .next { s with
      phase := .idle, resCode := if v = 0x80000000 then .ok else .errResponse, resData := v, resInfo := s.lat.db,
      events := ⟨.ctrl, .read, .buffer, s.cfg.bufAddr.toNat + 4, v⟩ :: s.events } := by
  rw [flagParseTestsTheWholeWord s hp]
  dsimp only [Nat.mul_one]
  rw [readValue_of_stored hw, drawn_of_stored hw]

end

/-- Settles O48: the five steps of a call in their order, each on the answer fixed for it. -/
theorem mboxCallCompletes : Obligations.MboxCallCompletes :=
  fun s i ch st0 st1 w1 rest hc hi hst0 hst1 hstatus hread hstore hw1 ha => by
    have started := exec_mboxCall s hi
    refine ⟨⟨_, started⟩, ?_⟩
    rw [runCommand_of_next started]
    refine (ctrlSteps_succ_of_next (ctrlStep_writable (by exact hc) (by rfl) (by exact hstatus) (by exact ha) (by exact hst0))).trans ?_
    refine (ctrlSteps_succ_of_next (ctrlStep_publish_absorbed (by exact hc) (by rfl) (by exact hstore))).trans ?_
    refine (ctrlSteps_succ_of_next (ctrlStep_readable (by exact hc) (by rfl) (by exact hstatus) (by rfl) (by exact hst1))).trans ?_
    refine (ctrlSteps_succ_of_next (ctrlStep_echo (by exact hc) (by rfl) (by exact hread) (by rfl))).trans ?_
    exact (ctrlSteps_one _).trans (ctrlStep_response (by rfl) (by exact hw1))

end Sys2Proof.Machine
end

section
/-! PROOFS, family 43_mailbox_channel.md: runs in which the mailbox answers (R181). A call leaves a poll by the controller's
step only, so each poll is followed to the step that leaves it; and what buffer word 1 holds is followed back to the write
of MBOX_HW it came from. -/

namespace Sys2Proof.Machine

open Sys2Proof.Claims

/-! ## A call ends when the mailbox answers -/

/-- The controller's steps of a call keep the doorbell. -/
theorem ctrlStep_keeps_doorbell {s t : State} (hc : configWellFormed s.cfg = true) (hp : mailboxPhase s.phase = true)
    (h : ctrlStep s = .next t) : t.lat.db = s.lat.db := by
  cases phase : s.phase with
  | mbWaitWritable => rw [writePollSpinsWhileFull s hc phase] at h; cases h; rfl
  | mbPublish => rw [ctrlStep_publishes hc phase] at h; cases h; rfl
  | mbWaitReadable => rw [readPollSpinsWhileEmpty s hc phase] at h; cases h; rfl
  | mbCheckEcho => rw [echoMatchComparesTheWholeWord s hc phase] at h; cases h; rfl
  | mbCheckResponse => rw [flagParseTestsTheWholeWord s phase] at h; cases h; rfl
  | idle | fpRead | fpWrite | bufAccess | faulted => rw [phase] at hp; cases hp

theorem gpuWriteBuffer_lat (i : Nat) (v : Word) (s : State) : (gpuWriteBuffer i v s).lat = s.lat := by
  unfold gpuWriteBuffer
  split
  · exact memWrite_lat ..
  · rfl

/-- In a call with no reset due, the controller steps or the environment uses up a turn. -/
theorem step_call {s t : State} (h : step s = .next t) (hp : mailboxPhase s.phase = true) :
    (ctrlStep { s with turns := s.turns.tail } = .next t) ∨ (∃ ts, s.turns = .reset :: ts ∧ t = applyReset { s with turns := ts }) ∨
      (t.phase = s.phase ∧ t.lat = s.lat ∧ ∃ tn, s.turns = tn :: t.turns) := by
  have notIdle : s.phase ≠ .idle := fun e => by rw [e] at hp; cases hp
  cases (step_shape h).2 with
  | illegal _ _ idle _ _ _ => exact absurd idle notIdle
  | issue _ _ _ idle _ _ _ _ => exact absurd idle notIdle
  | ctrl _ result => exact .inl result
  | answer _ _ _ turn result => subst result; exact .inr (.inr ⟨rfl, rfl, _, turn⟩)
  | absorb _ turn result => subst result; exact .inr (.inr ⟨rfl, rfl, _, turn⟩)
  | gpuWrite i v ts turn result =>
    subst result
    refine .inr (.inr ⟨gpuWriteBuffer_phase .., gpuWriteBuffer_lat .., .gpuWrite i v, ?_⟩)
    rw [(gpuWriteBuffer_port_turns i v { s with turns := ts }).2, turn]
  | reset ts turn result => exact .inr (.inl ⟨ts, turn, result⟩)

/-- Step `n` of the run is in phase `p` of a call with doorbell `db`, and no reset is due. -/
structure InCall (r : Nat → State) (n : Nat) (db : Word) (p : Phase) : Prop where
  phase : (r n).phase = p
  doorbell : (r n).lat.db = db
  noReset : Turn.reset ∉ (r n).turns

section
variable {r : Nat → State} (hrun : IsRun r) {n : Nat} {db : Word} {p : Phase}
include hrun

/-- The next step of a call: it stays with one turn less to take, or the controller steps. -/
theorem InCall.next (h : InCall r n db p) (hcall : mailboxPhase p = true) :
    (InCall r (n + 1) db p ∧ (r (n + 1)).turns.length < (r n).turns.length) ∨
    (ctrlStep { r n with turns := (r n).turns.tail } = .next (r (n + 1)) ∧
      InCall r (n + 1) db (r (n + 1)).phase) := by
  obtain ⟨rfl, rfl, noReset⟩ := h
  rcases step_call (hrun n) hcall with ctrl | ⟨ts, turn, -⟩ | ⟨phase, lat, tn, turn⟩
  · have db := ctrlStep_keeps_doorbell (s := { r n with turns := (r n).turns.tail }) (step_shape (hrun n)).1 hcall ctrl
    have turns : (r (n + 1)).turns = (r n).turns.tail := (ctrlStep_keeps ctrl).2.2
    exact .inr ⟨ctrl, rfl, db, fun e => noReset (List.mem_of_mem_tail (turns ▸ e))⟩
  · exact absurd (by simp [turn]) noReset
  · refine .inl ⟨⟨phase, by rw [lat], fun e => noReset ?_⟩, by simp [turn]⟩
    rw [turn]
    exact List.mem_cons_of_mem _ e

/-- Phases `P` of a call that the run leaves are left by the controller's step. -/
theorem InCall.leaves {P : Phase → Prop} (hcall : ∀ {p}, P p → mailboxPhase p = true) (h : InCall r n db p) (hp : P p)
    {m : Nat} (hnm : n ≤ m) (hm : ¬ P (r m).phase) :
    ∃ k, P (r k).phase ∧ ¬ P (r (k + 1)).phase ∧ InCall r (k + 1) db (r (k + 1)).phase ∧
      ctrlStep { r k with turns := (r k).turns.tail } = .next (r (k + 1)) := by
  obtain ⟨d, rfl⟩ := Nat.exists_eq_add_of_le hnm
  clear hnm
  induction d generalizing n p with
  | zero => rw [Nat.add_zero, h.phase] at hm; exact absurd hp hm
  | succ d ih =>
    rw [← Nat.succ_add_eq_add_succ] at hm
    rcases h.next hrun (hcall hp) with ⟨stays, -⟩ | ⟨ctrl, inCall⟩
    · exact ih stays hp hm
    · by_cases hp' : P (r (n + 1)).phase
      · exact ih inCall hp' hm
      · exact ⟨n, h.phase ▸ hp, hp', inCall, ctrl⟩

/-- A phase every controller step leaves is left: the schedule is finite, and after it the block moves (log 8). -/
theorem InCall.moves (h : InCall r n db p) (hcall : mailboxPhase p = true) :
    ∃ k, (r k).phase = p ∧ InCall r (k + 1) db (r (k + 1)).phase ∧
      ctrlStep { r k with turns := (r k).turns.tail } = .next (r (k + 1)) := by
  induction hl : (r n).turns.length using Nat.strongRecOn generalizing n with
  | ind l ih =>
    subst hl
    rcases h.next hrun hcall with ⟨stays, shorter⟩ | ⟨ctrl, inCall⟩
    · exact ih _ shorter stays rfl
    · exact ⟨n, h.phase, inCall, ctrl⟩

/-- A read the run makes of a register in a call is its controller's step. -/
theorem ctrlStep_of_readsAt {a : Nat} {v : Word} (h : ReadsAt r n a v) :
    ctrlStep { r n with turns := (r n).turns.tail } = .next (r (n + 1)) := ctrlStep_of_recorded (hrun n) h rfl

end

/-! ### The controller's steps that leave a phase of a call -/

/-- The check of the response ends the call, with the code that word 1 decides. -/
theorem checkResponse_ends {s t : State} (hp : s.phase = .mbCheckResponse) (h : ctrlStep s = .next t) :
    t.phase = .idle ∧ t.resCode = (if readValue (bufWordAddr s.cfg 1) s = responseFlag then .ok else .errResponse) ∧
      t.resInfo = t.lat.db := by
  rw [ctrlStep_of_checkResponse hp, checkResponseStep_eq] at h
  cases h
  exact ⟨rfl, rfl, by simp [complete]⟩

section
variable {r : Nat → State} (hrun : IsRun r) {n : Nat}
include hrun

theorem leaves_waitWritable (hp : (r n).phase = .mbWaitWritable)
    (h : ctrlStep { r n with turns := (r n).turns.tail } = .next (r (n + 1)))
    (hleft : (r (n + 1)).phase ≠ .mbWaitWritable) : (r (n + 1)).phase = .mbPublish := by
  rw [writePollSpinsWhileFull { r n with turns := (r n).turns.tail } (step_shape (hrun n)).1 hp] at h
  have phase := congrArg State.phase (Host.Outcome.next.inj h).symm
  dsimp only at phase
  split_ifs at phase
  · exact absurd phase hleft
  · exact phase

/-- A status read that shows not full ends the write-poll. -/
theorem not_full_publishes {v : Word} (hp : (r n).phase = .mbWaitWritable)
    (hread : ReadsAt r n (r n).cfg.mboxStatusAddr.toNat v) (free : v &&& (r n).cfg.mboxFullMask = 0) :
    (r (n + 1)).phase ≠ .mbWaitWritable := by
  have h := ctrlStep_of_readsAt hrun hread
  rw [writePollSpinsWhileFull { r n with turns := (r n).turns.tail } (step_shape (hrun n)).1 hp] at h
  have e := (Host.Outcome.next.inj h).symm
  have value : readValue (r n).cfg.mboxStatusAddr.toNat { r n with turns := (r n).turns.tail } = v :=
    (Event.mk.inj (List.cons.inj ((congrArg State.events e).symm.trans hread)).1).2.2.2.2
  rw [congrArg State.phase e]
  dsimp only
  rw [value, if_neg (not_not.2 free)]
  decide

/-- A read of the doorbell ends the wait for the echo. -/
theorem echo_matches (hp : (r n).phase = .mbCheckEcho)
    (hread : ReadsAt r n (r n).cfg.mboxReadAddr.toNat (r n).lat.db) : (r (n + 1)).phase = .mbCheckResponse := by
  have h := ctrlStep_of_readsAt hrun hread
  rw [echoMatchComparesTheWholeWord { r n with turns := (r n).turns.tail } (step_shape (hrun n)).1 hp] at h
  have e := (Host.Outcome.next.inj h).symm
  have value : readValue (r n).cfg.mboxReadAddr.toNat { r n with turns := (r n).turns.tail } = (r n).lat.db :=
    (Event.mk.inj (List.cons.inj ((congrArg State.events e).symm.trans hread)).1).2.2.2.2
  exact (congrArg State.phase e).trans (if_pos value)

theorem leaves_awaitsEcho (hp : AwaitsEcho (r n).phase)
    (h : ctrlStep { r n with turns := (r n).turns.tail } = .next (r (n + 1)))
    (hleft : ¬ AwaitsEcho (r (n + 1)).phase) : (r (n + 1)).phase = .mbCheckResponse := by
  have hc := (step_shape (hrun n)).1
  rcases hp with hp | hp
  · exact absurd (readPoll_awaitsEcho (s := { r n with turns := (r n).turns.tail }) hc hp h) hleft
  · by_contra hne
    refine hleft (.inl ?_)
    rw [echoMatchComparesTheWholeWord { r n with turns := (r n).turns.tail } hc hp] at h
    have phase := congrArg State.phase (Host.Outcome.next.inj h).symm
    dsimp only at phase
    split_ifs at phase
    · exact absurd phase hne
    · exact phase

end

/-! ### The stages of an answered call -/

section
variable {r : Nat → State} (hrun : IsRun r) {n : Nat} {db : Word}
include hrun

/-- R172 under EnvWritable: the write-poll ends. -/
theorem InCall.publishes (henv : EnvWritable r) (h : InCall r n db .mbWaitWritable) : ∃ k, InCall r k db .mbPublish := by
  obtain ⟨m, v, hnm, hp, reads, free⟩ := henv n h.phase
  obtain ⟨k, hk, hleft, inCall, ctrl⟩ := h.leaves hrun (P := (· = .mbWaitWritable)) (fun e => e ▸ rfl) rfl
    (Nat.le_succ_of_le hnm) (not_full_publishes hrun hp reads free)
  exact ⟨k + 1, leaves_waitWritable hrun hk ctrl hleft ▸ inCall⟩

/-- R173: the publish is one step. -/
theorem InCall.published (h : InCall r n db .mbPublish) : ∃ k, InCall r k db .mbWaitReadable := by
  obtain ⟨k, hk, inCall, ctrl⟩ := h.moves hrun rfl
  rw [ctrlStep_publishes (s := { r k with turns := (r k).turns.tail }) (step_shape (hrun k)).1 hk] at ctrl
  have phase : (r (k + 1)).phase = .mbWaitReadable := congrArg State.phase (Host.Outcome.next.inj ctrl).symm
  exact ⟨k + 1, phase ▸ inCall⟩

/-- R174, R175 under EnvEchoes: the wait for the echo ends. -/
theorem InCall.echoed (henv : EnvEchoes r) (h : InCall r n db .mbWaitReadable) :
    ∃ k, InCall r k db .mbCheckResponse := by
  obtain ⟨k₀, m, -, hn, hm, -, -, -, hp, reads⟩ := henv n h.phase
  have matched := echo_matches hrun hp reads
  obtain ⟨k, hk, hleft, inCall, ctrl⟩ := h.leaves hrun (P := AwaitsEcho) AwaitsEcho.mailboxPhase (.inl rfl)
    (m := m + 1) (by omega) (by rw [matched]; rintro (e | e) <;> cases e)
  exact ⟨k + 1, leaves_awaitsEcho hrun hk ctrl hleft ▸ inCall⟩

/-- R176: the check of the response ends the call. -/
theorem InCall.ends (h : InCall r n db .mbCheckResponse) :
    ∃ k, (r k).phase = .idle ∧ ((r k).resCode = .ok ∨ (r k).resCode = .errResponse) ∧ (r k).resInfo = db := by
  obtain ⟨k, hk, inCall, ctrl⟩ := h.moves hrun rfl
  obtain ⟨phase, code, info⟩ := checkResponse_ends (s := { r k with turns := (r k).turns.tail }) hk ctrl
  refine ⟨k + 1, phase, ?_, info.trans inCall.doorbell⟩
  rw [code]
  split_ifs
  · exact .inl rfl
  · exact .inr rfl

end

/-- Settles O51: the call passes its stages in order. -/
theorem callEndsWhenTheMailboxAnswers : Obligations.CallEndsWhenTheMailboxAnswers :=
  fun r hrun hwritable hechoes noReset start => by
    have atStart : InCall r 0 (r 0).lat.db .mbWaitWritable := ⟨start, rfl, noReset⟩
    obtain ⟨_, atPublish⟩ := atStart.publishes hrun hwritable
    obtain ⟨_, atReadPoll⟩ := atPublish.published hrun
    obtain ⟨_, atResponse⟩ := atReadPoll.echoed hrun hechoes
    exact atResponse.ends hrun

/-! ## OK means MBOX_HW wrote the flag -/

/-- During a call memory changes by MBOX_HW's writes of buffer words only. -/
theorem step_mem_of_callInFlight {s t : State} (h : step s = .next t) (hp : callInFlight s = true) :
    t.mem = s.mem ∨ ∃ i v, i < s.cfg.bufWords ∧
      t.events = ⟨.mboxHw, .write, .buffer, bufWordAddr s.cfg i, v⟩ :: s.events ∧
      t.mem = (memWrite .mboxHw .buffer (bufWordAddr s.cfg i) v s).mem := by
  have notIdle : s.phase ≠ .idle := fun e => by rw [callInFlight, e] at hp; cases hp
  cases (step_shape h).2 with
  | illegal _ _ idle _ _ _ => exact absurd idle notIdle
  | issue _ _ _ idle _ _ _ _ => exact absurd idle notIdle
  | ctrl _ result =>
    refine .inl ?_
    cases ctrlStep_access result with
    | none _ mem _ => exact mem
    | read _ _ _ mem _ _ => exact mem
    | write _ _ _ _ _ _ place =>
      have phase : s.phase = .fpWrite ∨ s.phase = .mbPublish ∨ s.phase = .bufAccess := by
        rcases place with ⟨-, -, e | e⟩ | ⟨-, e, -⟩
        · exact .inl e
        · exact .inr (.inl e)
        · exact .inr (.inr e)
      rcases phase with e | e | e <;> rw [callInFlight, e] at hp <;> cases hp
  | answer _ _ _ _ result => subst result; exact .inl rfl
  | absorb _ _ result => subst result; exact .inl rfl
  | gpuWrite i v ts _ result =>
    subst result
    by_cases hi : i < s.cfg.bufWords
    · rw [gpuWriteBuffer_of_enabled (s := { s with turns := ts }) v hp hi]
      refine .inr ⟨i, v, hi, memWrite_events .., ?_⟩
      rw [memWrite_mem, memWrite_mem]
      rfl
    · rw [gpuWriteBuffer_of_disabled (s := { s with turns := ts }) v fun e => hi e.2]
      exact .inl rfl
  | reset _ _ result => subst result; exact .inl rfl

/-- The flag's word in buffer memory. -/
def responseWord (s : State) : Option Word := s.mem.wordAt (bufWordAddr s.cfg 1)

/-- During a call a step writes word 1 as MBOX_HW's, or leaves it. -/
theorem step_responseWord {s t : State} (h : step s = .next t) (hp : callInFlight s = true) :
    responseWord t = responseWord s ∨ ∃ v, responseWord t = some v ∧
      t.events = ⟨.mboxHw, .write, .buffer, bufWordAddr s.cfg 1, v⟩ :: s.events := by
  rw [responseWord, responseWord, step_cfg h]
  rcases step_mem_of_callInFlight h hp with mem | ⟨i, v, hi, events, mem⟩ <;> rw [mem]
  · exact .inl rfl
  · by_cases h1 : i = 1
    · subst h1
      exact .inr ⟨v, memWrite_wordAt_same _ _ _ _ _ (storesAt_bufWordAddr hi), events⟩
    · refine .inl (Memory.wordAt_congr fun b hb hb' => memWrite_byteAt_outside _ _ _ _ _ ?_)
      unfold bufWordAddr at *
      omega

section
variable {r : Nat → State} (hrun : IsRun r) {n : Nat} {v : Word}
include hrun

/-- What MBOX_HW writes to word 1 is there after the step. -/
theorem responseWord_of_gpuWritesAt (h : GpuWritesAt r n 1 v) : responseWord (r (n + 1)) = some v := by
  rcases step_recorded (hrun n) h with ⟨ctrl, -⟩ | ⟨flight, i, u, ts, turn, hi, e⟩
  · cases ctrl
  · obtain ⟨-, -, -, place, rfl⟩ := Event.mk.inj e
    obtain rfl : i = 1 := by unfold bufWordAddr at place; omega
    have next := (hrun n).symm.trans (step_of_gpuWrite (step_shape (hrun n)).1 turn)
    rw [gpuWriteBuffer_of_enabled (s := { r n with turns := ts }) v flight hi] at next
    rw [Host.Outcome.next.inj next, responseWord, memWrite_cfg]
    exact memWrite_wordAt_same _ _ _ _ _ (storesAt_bufWordAddr hi)

/-- While the call is in flight word 1 is what MBOX_HW last wrote there, where it wrote before step `m` and not after. -/
theorem responseWord_written {j m p : Nat} (hjm : j < m) (hj : GpuWritesAt r j 1 v)
    (flight : ∀ q, j ≤ q → q ≤ p → callInFlight (r q) = true)
    (quiet : ∀ q u, m ≤ q → q < p → ¬ GpuWritesAt r q 1 u) (d : Nat) (hd : j + 1 + d ≤ p) :
    ∃ i u, i < m ∧ callInFlight (r i) = true ∧ GpuWritesAt r i 1 u ∧ responseWord (r (j + 1 + d)) = some u := by
  induction d with
  | zero =>
    have hp := flight j le_rfl (by omega)
    exact ⟨j, v, hjm, hp, hj, responseWord_of_gpuWritesAt hrun hj⟩
  | succ d ih =>
    obtain ⟨i, u, him, hi, written, word⟩ := ih (by omega)
    have hp := flight (j + 1 + d) (by omega) (by omega)
    rcases step_responseWord (hrun _) hp with kept | ⟨u', word', events⟩
    · exact ⟨i, u, him, hi, written, kept.trans word⟩
    · have before : j + 1 + d < m := by
        by_contra hm
        exact quiet _ u' (by omega) (by omega) events
      exact ⟨_, u', before, hp, events, word'⟩

/-- A call that ends with OK ends on word 1 holding the flag. -/
theorem responseWord_of_ok {u : Word} (hp : (r n).phase = .mbCheckResponse) (hidle : (r (n + 1)).phase = .idle)
    (hok : (r (n + 1)).resCode = .ok) (word : responseWord (r n) = some u) : u = 0x80000000 := by
  rcases step_call (hrun n) (by rw [hp]; rfl) with ctrl | ⟨ts, -, reset⟩ | ⟨phase, -, -⟩
  · obtain ⟨-, code, -⟩ := checkResponse_ends (s := { r n with turns := (r n).turns.tail }) hp ctrl
    rw [hok, readValue_of_stored (s := { r n with turns := (r n).turns.tail }) word] at code
    exact by_contra fun hne => nomatch code.trans (if_neg hne)
  · rw [reset] at hok
    cases hok
  · rw [phase, hp] at hidle
    cases hidle

end

/-- Settles O52: word 1 is followed from the write that precedes the echo to the check of the response. -/
theorem okMeansTheGpuWroteTheFlag : Obligations.OkMeansTheGpuWroteTheFlag :=
  fun r m p hrun henv hp reads hmp checking hidle hok => by
    obtain ⟨j, k, v, -, hjk, hkm, written, -, -, -, flight, quiet⟩ := henv m hp reads
    have flight' (q : Nat) (hj : j ≤ q) (hq : q ≤ p) : callInFlight (r q) = true := by
      rcases Nat.lt_or_ge m q with hm | hm
      · exact callInFlight_iff.2 (.inr (.inr (checking q hm hq)))
      · exact flight q hj hm
    have quiet' (q : Nat) (u : Word) (hm : m ≤ q) (hq : q < p) : ¬ GpuWritesAt r q 1 u := fun h => by
      obtain ⟨i, hmi, hiq, idle⟩ := quiet q 1 u (by omega) h
      exact nomatch idle.symm.trans (checking i hmi (by omega))
    obtain ⟨d, rfl⟩ : ∃ d, p = j + 1 + d := Nat.exists_eq_add_of_le (by omega)
    obtain ⟨i, u, him, hi, written, word⟩ := responseWord_written hrun (by omega) written flight' quiet' d le_rfl
    exact ⟨i, him, hi, responseWord_of_ok hrun (checking _ hmp le_rfl) hidle hok word ▸ written⟩

end Sys2Proof.Machine
end

section
/-! PROOFS, family 10_state.md: no latch can be observed (R24). In each phase the later steps read some of the latches only;
two states that are equal but for the latches, and agree in those, go on alike. The Issue step loads what its phase reads. -/

namespace Sys2Proof.Machine

open Sys2Proof.Claims

/-! ## The latches a phase reads -/

/-- Equal in the latches both access phases of the field packer read; the stage is read for a composite command only. -/
structure SameAccess (l l' : Latches) : Prop where
  op : l'.op = l.op
  pin : l'.pin = l.pin
  addr : l'.addr = l.addr
  stage : l.op = opGpioAlt3 ∨ l.op = opGpioAlt5 → l'.stage = l.stage

/-- Equal in the latches that FP_READ and the steps after it read. -/
structure SameBeforeRead (l l' : Latches) : Prop extends SameAccess l l' where
  val : l'.val = l.val
  shift : l'.shift = l.shift
  fmask : l'.fmask = l.fmask

/-- Equal in the latches that FP_WRITE and the steps after it read. -/
structure SameBeforeWrite (l l' : Latches) : Prop extends SameAccess l l' where
  new : l'.new = l.new

/-- Equal in the latches BUF_ACCESS reads. -/
structure SameBuffer (l l' : Latches) : Prop where
  op : l'.op = l.op
  idx : l'.idx = l.idx
  val : l'.val = l.val

/-- Equal in the latches that the steps from a phase on read. In IDLE and FAULTED there are none. -/
def Agree : Phase → Latches → Latches → Prop
  | .idle, _, _ => True
  | .faulted, _, _ => True
  | .fpRead, l, l' => SameBeforeRead l l'
  | .fpWrite, l, l' => SameBeforeWrite l l'
  | .bufAccess, l, l' => SameBuffer l l'
  | .mbWaitWritable, l, l' => l'.db = l.db
  | .mbPublish, l, l' => l'.db = l.db
  | .mbWaitReadable, l, l' => l'.db = l.db
  | .mbCheckEcho, l, l' => l'.db = l.db
  | .mbCheckResponse, l, l' => l'.db = l.db

/-- Equal in everything that can matter: all fields but the latches, and the latches the phase reads. -/
structure Alike (s t : State) : Prop where
  rest : s.withoutLatches = t.withoutLatches
  latches : Agree s.phase s.lat t.lat

/-- Both stop with the same reason, or both go on alike. -/
inductive AlikeOutcomes : Result → Result → Prop where
  | next {s t : State} (h : Alike s t) : AlikeOutcomes (.next s) (.next t)
  | fault (r : Fault) : AlikeOutcomes (.fault r) (.fault r)
  | refused (r : Refusal) : AlikeOutcomes (.refused r) (.refused r)

theorem Alike.exists_setLat {s t : State} (h : Alike s t) :
    ∃ l l', s = setLat l s ∧ t = setLat l' s ∧ Agree s.phase l l' :=
  ⟨s.lat, t.lat, rfl, (congrArg (setLat t.lat) h.rest).symm, h.latches⟩

section
variable {s : State} {l l' : Latches}

theorem alike_complete (code : ResCode) (data info : Word) :
    Alike (complete code data info (setLat l s)) (complete code data info (setLat l' s)) := ⟨rfl, trivial⟩

theorem alike_raiseFatal (code : ResCode) (info : Word) :
    Alike (raiseFatal code info (setLat l s)) (raiseFatal code info (setLat l' s)) := ⟨rfl, trivial⟩

theorem alike_setPhase {p : Phase} (h : Agree p l l') : Alike (setPhase p (setLat l s)) (setPhase p (setLat l' s)) :=
  ⟨rfl, h⟩

/-- The same test on both sides. -/
theorem alike_ite {p q : Prop} [Decidable p] [Decidable q] {s₁ s₂ t₁ t₂ : State} (hpq : q ↔ p) (h₁ : Alike s₁ t₁)
    (h₂ : Alike s₂ t₂) : Alike (if p then s₁ else s₂) (if q then t₁ else t₂) := by
  by_cases hp : p
  · rwa [if_pos hp, if_pos (hpq.2 hp)]
  · rwa [if_neg hp, if_neg (hpq.not.2 hp)]

/-! ## Accesses -/

theorem alike_mmioRead {a : Nat} {k : Word → State → State} (h : ∀ v u, Alike (k v (setLat l u)) (k v (setLat l' u))) :
    Alike (mmioRead a (setLat l s) k) (mmioRead a (setLat l' s) k) := by
  cases hm : mmioFault s.cfg a with
  | some code =>
    rw [mmioRead_of_fault (s := setLat l s) k hm, mmioRead_of_fault (s := setLat l' s) k hm]
    exact alike_raiseFatal _ _
  | none =>
    rw [mmioRead_of_ok (s := setLat l s) k hm, mmioRead_of_ok (s := setLat l' s) k hm, afterRead_setLat, afterRead_setLat]
    exact h _ _

theorem alike_mmioWrite {a : Nat} {v : Word} {k : State → State} (h : ∀ u, Alike (k (setLat l u)) (k (setLat l' u))) :
    Alike (mmioWrite a v (setLat l s) k) (mmioWrite a v (setLat l' s) k) := by
  cases hm : mmioFault s.cfg a with
  | some code =>
    rw [mmioWrite_of_fault (s := setLat l s) k hm, mmioWrite_of_fault (s := setLat l' s) k hm]
    exact alike_raiseFatal _ _
  | none =>
    rw [mmioWrite_of_ok (s := setLat l s) k hm, mmioWrite_of_ok (s := setLat l' s) k hm, memWrite_setLat, memWrite_setLat]
    exact h _

theorem alike_bufRead {i : Nat} {k : Word → State → State} (h : ∀ v u, Alike (k v (setLat l u)) (k v (setLat l' u))) :
    Alike (bufRead i (setLat l s) k) (bufRead i (setLat l' s) k) := by
  rw [bufRead, bufRead, afterRead_setLat, afterRead_setLat]
  exact h _ _

/-! ## The controller's step -/

theorem fpReadStep_alike (h : SameBeforeRead l l') : Alike (fpReadStep (setLat l s)) (fpReadStep (setLat l' s)) := by
  rw [fpReadStep, fpReadStep, setLat_lat, setLat_lat, h.addr]
  refine alike_mmioRead fun v u => alike_ite (Iff.of_eq (congrArg (· = opUnpack) h.op)) ?_ ?_
  · rw [setLat_lat, setLat_lat, h.shift, h.fmask, h.addr]
    exact alike_complete ..
  · rw [setLat_lat, setLat_lat, h.val, h.shift, h.fmask]
    exact alike_setPhase (p := .fpWrite) ⟨⟨h.op, h.pin, h.addr, h.stage⟩, rfl⟩

/-- The geometry latches are computed from operand latches. -/
theorem startAccess_alike (op : l'.op = l.op) (pin : l'.pin = l.pin) (w : l'.w = l.w) (base : l'.base = l.base)
    (val : l'.val = l.val) (stage : l.op = opGpioAlt3 ∨ l.op = opGpioAlt5 → l'.stage = l.stage) :
    Alike (startAccess (setLat l s)) (startAccess (setLat l' s)) := by
  refine alike_setPhase (p := .fpRead) ⟨⟨op, pin, ?_, stage⟩, val, ?_, ?_⟩ <;> simp only [setLat_lat, pin, w, base]

/-- "begin stage 1" loads what the second FP_READ reads. -/
theorem beginStage1_alike (hop : l'.op = l.op) (hpin : l'.pin = l.pin) :
    Alike (beginStage1 (setLat l s)) (beginStage1 (setLat l' s)) := by
  have code : compositeCode (setLat l' s) = compositeCode (setLat l s) := by
    simp only [compositeCode, setLat_lat, hop]
    rfl
  rw [beginStage1, beginStage1, code, setLat_lat, setLat_lat, hpin]
  split_ifs
  · exact alike_raiseFatal ..
  · exact startAccess_alike (s := s) hop hpin rfl rfl rfl fun _ => rfl

theorem fpWriteStep_alike (h : SameBeforeWrite l l') : Alike (fpWriteStep (setLat l s)) (fpWriteStep (setLat l' s)) := by
  have stage0 : (l'.op = opGpioAlt3 ∨ l'.op = opGpioAlt5) ∧ l'.stage = 0 ↔
      (l.op = opGpioAlt3 ∨ l.op = opGpioAlt5) ∧ l.stage = 0 := by
    rw [h.op]
    exact and_congr_right fun hop => by rw [h.stage hop]
  rw [fpWriteStep, fpWriteStep, setLat_lat, setLat_lat, h.addr, h.new]
  refine alike_mmioWrite fun u => alike_ite stage0 (beginStage1_alike h.op h.pin) ?_
  rw [setLat_lat, setLat_lat, h.new, h.addr]
  exact alike_complete ..

theorem bufAccessStep_alike (h : SameBuffer l l') : Alike (bufAccessStep (setLat l s)) (bufAccessStep (setLat l' s)) := by
  refine alike_ite (Iff.of_eq (congrArg (· = opBufWr) h.op)) ?_ ?_ <;> rw [setLat_lat, setLat_lat, h.idx]
  · rw [h.val, bufWrite, bufWrite, memWrite_setLat, memWrite_setLat]
    exact alike_complete ..
  · refine alike_bufRead fun v u => ?_
    rw [setLat_lat, setLat_lat, h.idx]
    exact alike_complete ..

theorem waitWritableStep_alike (h : l'.db = l.db) :
    Alike (waitWritableStep (setLat l s)) (waitWritableStep (setLat l' s)) :=
  alike_mmioRead fun _ _ =>
    alike_ite Iff.rfl (alike_setPhase (p := .mbWaitWritable) h) (alike_setPhase (p := .mbPublish) h)

theorem publishStep_alike (h : l'.db = l.db) : Alike (publishStep (setLat l s)) (publishStep (setLat l' s)) := by
  rw [publishStep, publishStep, setLat_lat, setLat_lat, h]
  exact alike_mmioWrite fun _ => alike_setPhase (p := .mbWaitReadable) h

theorem waitReadableStep_alike (h : l'.db = l.db) :
    Alike (waitReadableStep (setLat l s)) (waitReadableStep (setLat l' s)) :=
  alike_mmioRead fun _ _ =>
    alike_ite Iff.rfl (alike_setPhase (p := .mbWaitReadable) h) (alike_setPhase (p := .mbCheckEcho) h)

theorem checkEchoStep_alike (h : l'.db = l.db) : Alike (checkEchoStep (setLat l s)) (checkEchoStep (setLat l' s)) :=
  alike_mmioRead fun v _ => alike_ite (Iff.of_eq (congrArg (v ≠ ·) h))
    (alike_setPhase (p := .mbWaitReadable) h) (alike_setPhase (p := .mbCheckResponse) h)

theorem checkResponseStep_alike (h : l'.db = l.db) :
    Alike (checkResponseStep (setLat l s)) (checkResponseStep (setLat l' s)) :=
  alike_bufRead fun _ _ => by
    rw [setLat_lat, setLat_lat, h]
    exact alike_ite Iff.rfl (alike_complete ..) (alike_complete ..)

theorem ctrlStep_alike (h : Agree s.phase l l') : AlikeOutcomes (ctrlStep (setLat l s)) (ctrlStep (setLat l' s)) := by
  unfold ctrlStep
  simp only [setLat_phase]
  cases hp : s.phase <;> rw [hp] at h
  case idle => exact .next ⟨rfl, by rw [setLat_phase, hp]; exact h⟩
  case fpRead => exact .next (fpReadStep_alike h)
  case fpWrite => exact .next (fpWriteStep_alike h)
  case bufAccess => exact .next (bufAccessStep_alike h)
  case mbWaitWritable => exact .next (waitWritableStep_alike h)
  case mbPublish => exact .next (publishStep_alike h)
  case mbWaitReadable => exact .next (waitReadableStep_alike h)
  case mbCheckEcho => exact .next (checkEchoStep_alike h)
  case mbCheckResponse => exact .next (checkResponseStep_alike h)
  case faulted => exact .fault (haltFault s)

/-! ## The Issue step -/

theorem packIssue_alike (h : KeepsOperands l l') (single : ¬ (l.op = opGpioAlt3 ∨ l.op = opGpioAlt5)) :
    Alike (packIssue (setLat l s)) (packIssue (setLat l' s)) := by
  rw [packIssue, packIssue, setLat_lat, setLat_lat, h.pin, h.val, h.w, h.maxp]
  split_ifs
  · exact alike_complete ..
  · exact startAccess_alike h.op h.pin h.w h.base h.val fun hop => absurd hop single

theorem unpackIssue_alike (h : KeepsOperands l l') (single : ¬ (l.op = opGpioAlt3 ∨ l.op = opGpioAlt5)) :
    Alike (unpackIssue (setLat l s)) (unpackIssue (setLat l' s)) := by
  rw [unpackIssue, unpackIssue, setLat_lat, setLat_lat, h.pin, h.maxp]
  split_ifs
  · exact alike_complete ..
  · exact startAccess_alike h.op h.pin h.w h.base h.val fun hop => absurd hop single

theorem compositeIssue_alike (h : KeepsOperands l l') :
    Alike (compositeIssue (setLat l s)) (compositeIssue (setLat l' s)) := by
  rw [compositeIssue, compositeIssue, setLat_lat, setLat_lat, h.pin]
  split_ifs
  · exact alike_raiseFatal ..
  · exact startAccess_alike (s := s) h.op h.pin rfl rfl rfl fun _ => rfl

theorem bufferIssue_alike (h : KeepsOperands l l') : Alike (bufferIssue (setLat l s)) (bufferIssue (setLat l' s)) := by
  rw [bufferIssue, bufferIssue, setLat_lat, setLat_lat, h.idx, setLat_cfg, setLat_cfg]
  split_ifs
  · exact alike_raiseFatal ..
  · exact alike_setPhase ⟨h.op, h.idx, h.val⟩

theorem mboxIssue_alike (h : KeepsOperands l l') : Alike (mboxIssue (setLat l s)) (mboxIssue (setLat l' s)) :=
  alike_setPhase (congrArg (doorbell s.cfg) h.ch)

end

/-- The accepting step of a legal command loads every latch that its issue part reads. -/
theorem issuePart_alike (i : Instr) (c : Command) (s : State) (l l' : Latches) :
    let s₁ := latchOpb c.opb (latchOpa c.opa (setLat l s))
    let s₂ := latchOpb c.opb (latchOpa c.opa (setLat l' s))
    Alike (issuePart i (setLat (operandLatches i s₁) s₁)) (issuePart i (setLat (operandLatches i s₂) s₂)) := by
  intro s₁ s₂
  have h : KeepsOperands (operandLatches i s₁) (operandLatches i s₂) := by
    cases i <;> exact ⟨⟨rfl, rfl, rfl, rfl⟩, rfl, rfl, rfl, rfl⟩
  cases i with
  | pack pin w maxp base value => exact packIssue_alike (s := s) h singleRmw_opPack.2
  | unpack pin w maxp base => exact unpackIssue_alike (s := s) h (show ¬ (opUnpack = opGpioAlt3 ∨ opUnpack = opGpioAlt5) by decide)
  | gpioSet pin => exact packIssue_alike (s := s) h singleRmw_opGpioSet.2
  | gpioClr pin => exact packIssue_alike (s := s) h singleRmw_opGpioClr.2
  | gpioPull pin state => exact packIssue_alike (s := s) h singleRmw_opGpioPull.2
  | gpioFsel pin function => exact packIssue_alike (s := s) h singleRmw_opGpioFsel.2
  | gpioAlt3 pin => exact compositeIssue_alike (s := s) h
  | gpioAlt5 pin => exact compositeIssue_alike (s := s) h
  | bufWr index value => exact bufferIssue_alike (s := s) h
  | bufRd index => exact bufferIssue_alike (s := s) h
  | bufAddr => exact alike_complete (s := s) _ _ _
  | mboxCallFb => exact mboxIssue_alike (s := s) h
  | mboxCallProp => exact mboxIssue_alike (s := s) h

theorem issue_alike (c : Command) (s : State) (l l' : Latches) :
    AlikeOutcomes (issue c (setLat l s)) (issue c (setLat l' s)) := by
  cases hd : decodeCommand c with
  | illegal r =>
    rw [issue, issue, hd]
    exact .next (alike_complete ..)
  | legal i =>
    have wf := (wordsOf_of_decode hd).wellFormed
    rw [issue_of_legal hd, issue_of_legal hd, exec_of_wellFormed wf, exec_of_wellFormed wf]
    exact .next (issuePart_alike i c s l l')

/-! ## A step of the machine -/

section
variable {s : State} {l l' : Latches}

theorem blockTurn_alike (h : Agree s.phase l l') : AlikeOutcomes (blockTurn (setLat l s)) (blockTurn (setLat l' s)) := by
  rcases blockTurn_cases s with ⟨c, cs, hp, hq, -⟩ | ⟨waits, -⟩
  · rw [blockTurn_of_waiting (s := setLat l s) hp hq, blockTurn_of_waiting (s := setLat l' s) hp hq]
    exact issue_alike c { s with port := cs } l l'
  · have runs (k : Latches) : blockTurn (setLat k s) = ctrlStep (setLat k s) := by
      rcases blockTurn_cases (setLat k s) with ⟨c, cs, hp, hq, -⟩ | ⟨-, e⟩
      · rcases waits with hp' | hq'
        · exact absurd hp hp'
        · exact nomatch hq'.symm.trans hq
      · exact e
    rw [runs, runs]
    exact ctrlStep_alike h

theorem gpuWriteBuffer_setLat (i : Nat) (v : Word) :
    gpuWriteBuffer i v (setLat l s) = setLat l (gpuWriteBuffer i v s) := by
  unfold gpuWriteBuffer
  rw [apply_ite (setLat l), bufWrite, bufWrite, memWrite_setLat]
  rfl

theorem takeTurn_alike (t : Turn) (h : Agree s.phase l l') :
    AlikeOutcomes (takeTurn t (setLat l s)) (takeTurn t (setLat l' s)) := by
  cases t with
  | block => exact blockTurn_alike h
  | answer a v => exact .next ⟨rfl, h⟩
  | absorb => exact .next ⟨rfl, h⟩
  | gpuWrite i v =>
    refine .next ?_
    rw [gpuWriteBuffer_setLat, gpuWriteBuffer_setLat]
    exact ⟨rfl, by rw [setLat_phase, gpuWriteBuffer_phase]; exact h⟩
  | reset => exact .next ⟨rfl, trivial⟩

end

/-- Whoever moves, two states that are alike go on alike. -/
theorem step_alike {s t : State} (h : Alike s t) : AlikeOutcomes (step s) (step t) := by
  obtain ⟨l, l', hs, ht, agree⟩ := h.exists_setLat
  rw [hs, ht, step, step, setLat_cfg, setLat_cfg]
  split_ifs
  · rw [nextTurn, nextTurn, setLat_turns, setLat_turns]
    cases s.turns with
    | nil => exact blockTurn_alike agree
    | cons t ts => exact takeTurn_alike (s := { s with turns := ts }) t agree
  · exact .refused _

theorem run_alike {s t : State} (h : Alike s t) (n : Nat) :
    outcomeWithoutLatches (Host.Core.run core n s) = outcomeWithoutLatches (Host.Core.run core n t) := by
  induction n generalizing s t with
  | zero => exact congrArg Host.Outcome.next h.rest
  | succ n ih =>
    have outcomes : AlikeOutcomes (core.step s) (core.step t) := step_alike h
    simp only [Host.Core.run]
    generalize core.step s = o, core.step t = o' at outcomes ⊢
    cases outcomes with
    | next h => exact ih h
    | fault r => rfl
    | refused r => rfl

/-- Settles O58: in IDLE states with any latches are alike. -/
theorem latchesAtResetAreNeverObserved : Obligations.LatchesAtResetAreNeverObserved := fun s l n idle =>
  run_alike (s := s) (t := setLat l s) ⟨rfl, by rw [idle]; trivial⟩ n

end Sys2Proof.Machine
end
